-- ==== Sys2Proof/Word.lean ====
section
/-! DEFINITION. The word types of AES128-CORE: bytes, bus addresses, length counters, and the fixed-length byte
arrays of `00_scope.md` R8, R9. -/

namespace Sys2Proof

/-- A byte; bit 7 is the most significant and the coefficient of x^7 (R8). -/
abbrev Byte := BitVec 8

/-- A host bus address, `0x000` to `0x3FF` (R60, R63). -/
abbrev Addr := BitVec 10

/-- A length counter, 5 bits (R22, R24). -/
abbrev Len := BitVec 5

/-- A word: an array of exactly 4 bytes, never a 32-bit number (R13, R67). -/
abbrev Word := Vector Byte 4

/-- A 16-byte array: a key or a block; `B[r + 4*c]` is the matrix cell at row `r`, column `c` (R9). -/
abbrev Block := Vector Byte 16

/-- The 176 bytes of the expanded key: round key `r` is bytes `16*r` to `16*r + 15` (R9, R26). -/
abbrev Schedule := Vector Byte 176

end Sys2Proof
end

