-- ==== Sys2Proof/Config.lean ====
section
/-! DEFINITION. What is fixed for the machine (R6, R7, R31) and the two free values the spec leaves open: `ANY8`
(R12) and `LAT` (R235). -/

namespace Sys2Proof.Config

/-- `ID`, read-only at `0x00C` (R31). -/
def idByte : Byte := 0xAE#8

/-- `VERSION`, read-only at `0x00D` (R31). -/
def versionByte : Byte := 0x10#8

/-- `ANY8` (R12): a byte about which the spec says nothing. No body, so nothing can evaluate it. It is applied to the
number of the draw, so that two reads may differ, and to the state, so that it may depend on anything the machine
holds. UNVERIFIED by design, safe (log 6). -/
opaque any8 {σ : Type} (draw : Nat) (s : σ) : Byte

/-- The free part of `LAT` (R235): the latency of an accepted command is this plus one, so any integer `>= 1`. It is
applied to the number of the draw, to the command byte and to the state at acceptance, as `LAT(cmd, state)` of R180
may be "different for every issue" and "dependent on the data". Safe (log 10). -/
opaque latency {σ : Type} (draw : Nat) (cmd : Byte) (s : σ) : Nat

end Sys2Proof.Config
end

