-- ==== Sys2Proof/Syntax.lean ====
section
/-! DEFINITION. The command set of AES128-CORE: one constructor per row of `spec/opcode_table.json` (R102). -/

namespace Sys2Proof

/-- A command (R102). All data operands are implicit; only ARK and CLR carry an operand field (R103). -/
inductive Instr where
  /-- NOP, `0x00`, format N (R182). -/
  | nop
  /-- ENC, `0x10`, format N (R162). -/
  | enc
  /-- DEC, `0x20`, format N (R163). -/
  | dec
  /-- EXPAND, `0x30`, format N (R136). -/
  | expand
  /-- GFMUL, `0x40`, format N (R123). -/
  | gfmul
  /-- SUBB, `0x50`, format N (R147). -/
  | subb
  /-- ISUBB, `0x60`, format N (R148). -/
  | isubb
  /-- SHR, `0x70`, format N (R149). -/
  | shr
  /-- ISHR, `0x80`, format N (R150). -/
  | ishr
  /-- MIXC, `0x90`, format N (R151). -/
  | mixc
  /-- IMIXC, `0xA0`, format N (R152). -/
  | imixc
  /-- ARK r, `0xB0` to `0xBA`, format R: `r = cmd[3:0]`, legal values 0 to 10 (R101, R103, R153). -/
  | ark (r : BitVec 4)
  /-- CLR m, `0xC0` to `0xC3`, format M: `b = cmd[1]`, `k = cmd[0]` (R101, R103, R183). -/
  | clr (b k : Bool)
  deriving DecidableEq, Repr

end Sys2Proof
end

