-- ==== Sys2Proof/WellFormed.lean ====
section
/-! DEFINITION. Which terms of `Instr` are commands of the hardware. -/

namespace Sys2Proof

/-- The one check a term can fail: the round index of ARK is 0 to 10; 11 to 15 are reserved encodings (R103, R104 b).
Every other constructor has only legal operand values. -/
def WellFormed : Instr → Prop
  | .ark r => r.toNat ≤ 10
  | .nop | .enc | .dec | .expand | .gfmul | .subb | .isubb | .shr | .ishr | .mixc | .imixc | .clr _ _ => True

/-- The same check as a Bool, for tests and for `decide`. -/
def wellFormed : Instr → Bool
  | .ark r => decide (r.toNat ≤ 10)
  | .nop | .enc | .dec | .expand | .gfmul | .subb | .isubb | .shr | .ishr | .mixc | .imixc | .clr _ _ => true

theorem wellFormed_iff (i : Instr) : wellFormed i = true ↔ WellFormed i := by
  cases i <;> simp [wellFormed, WellFormed]

end Sys2Proof
end

