-- ==== Sys2Proof/Decode.lean ====
section
/-! DEFINITION. Command bytes: the decoder of R106, total on every byte and rejecting by name, and the encoder written
from the formats of R101 and the opcode map of R102. -/

namespace Sys2Proof

/-- Why a byte is reserved: the four groups of R104. -/
inductive Reserved where
  /-- R104 (a): format N with a non-zero argument. -/
  | argNotZero
  /-- R104 (b): ARK with `r > 10`. -/
  | roundAboveTen
  /-- R104 (c): CLR with bits 3:2 non-zero. -/
  | maskBitsNotZero
  /-- R104 (d): opcode `0xD`, `0xE` or `0xF`. -/
  | reservedOpcode
  deriving DecidableEq, Repr

/-- What `Decode` answers (R106): a command, or RESERVED with the reason. -/
inductive Decoded where
  | command (i : Instr)
  | reserved (why : Reserved)
  deriving DecidableEq, Repr

/-- The opcode field, bits 7:4 (R100). -/
def opField (c : Byte) : BitVec 4 := c.extractLsb' 4 4

/-- The argument field, bits 3:0 (R100). -/
def argField (c : Byte) : BitVec 4 := c.extractLsb' 0 4

/-- Format N: the argument must be `0000` (R101). -/
def decodeN (i : Instr) (arg : BitVec 4) : Decoded :=
  if arg = 0#4 then .command i else .reserved .argNotZero

/-- Format R: `r = zext(cmd[3:0])`, legal values 0 to 10 (R101, R103). -/
def decodeR (arg : BitVec 4) : Decoded :=
  if arg.toNat ≤ 10 then .command (.ark arg) else .reserved .roundAboveTen

/-- Format M: bits 3:2 must be `00`, `B = cmd[1]`, `K = cmd[0]` (R101, R103). -/
def decodeM (arg : BitVec 4) : Decoded :=
  if arg.toNat ≤ 3 then .command (.clr (arg.getLsbD 1) (arg.getLsbD 0)) else .reserved .maskBitsNotZero

/-- `Decode(c)` of R106. -/
def decode (c : Byte) : Decoded :=
  match (opField c).toNat with
  | 0x0 => decodeN .nop (argField c)
  | 0x1 => decodeN .enc (argField c)
  | 0x2 => decodeN .dec (argField c)
  | 0x3 => decodeN .expand (argField c)
  | 0x4 => decodeN .gfmul (argField c)
  | 0x5 => decodeN .subb (argField c)
  | 0x6 => decodeN .isubb (argField c)
  | 0x7 => decodeN .shr (argField c)
  | 0x8 => decodeN .ishr (argField c)
  | 0x9 => decodeN .mixc (argField c)
  | 0xA => decodeN .imixc (argField c)
  | 0xB => decodeR (argField c)
  | 0xC => decodeM (argField c)
  | _ => .reserved .reservedOpcode

/-- The command byte of an instruction: `{op, arg}` by the rows of R102. -/
def encode : Instr → Byte
  | .nop => 0x0#4 ++ 0#4
  | .enc => 0x1#4 ++ 0#4
  | .dec => 0x2#4 ++ 0#4
  | .expand => 0x3#4 ++ 0#4
  | .gfmul => 0x4#4 ++ 0#4
  | .subb => 0x5#4 ++ 0#4
  | .isubb => 0x6#4 ++ 0#4
  | .shr => 0x7#4 ++ 0#4
  | .ishr => 0x8#4 ++ 0#4
  | .mixc => 0x9#4 ++ 0#4
  | .imixc => 0xA#4 ++ 0#4
  | .ark r => 0xB#4 ++ r
  | .clr b k => 0xC#4 ++ (0#2 ++ BitVec.ofBool b ++ BitVec.ofBool k)

/-- The instruction the decoder reads from an instruction whose bits are `w`, numbered as the opcode table numbers
them. A command is one byte (R100), so the bits from `nbits` up, and from 8 up, play no part. -/
def decodeTableWord (nbits w : Nat) : Option Instr :=
  match decode (BitVec.ofNat 8 (w % 2 ^ nbits)) with
  | .command i => some i
  | .reserved _ => none

end Sys2Proof
end

