-- ==== Sys2Proof/Machine/State.lean ====
section
/-! DEFINITION. The state of AES128-CORE: all of R20, the host's coming inputs and the model's own bookkeeping, as plain
data; the reasons a step can stop; the state after reset (R220). -/

namespace Sys2Proof.Machine

/-- The input pins during one clock cycle (R60). -/
structure Pins where
  /-- Synchronous reset, active high (R220). -/
  rst : Bool
  /-- 1 in a cycle in which the host makes a bus access. -/
  sel : Bool
  /-- With `sel`: 1 for a write, 0 for a read. -/
  wr : Bool
  /-- The byte address. -/
  addr : Addr
  /-- The write data. -/
  wdata : Byte
  deriving DecidableEq, Repr

/-- The state of the core during one clock cycle (R20, R61), with the model's own fields at the end. -/
structure State where
  /-- `KEY[0..16)` (R21). -/
  key : Block
  /-- `KEYLEN` (R22). -/
  keylen : Len
  /-- `BLK[0..16)` (R23). -/
  blk : Block
  /-- `BLKLEN` (R24). -/
  blklen : Len
  /-- `W[0..176)` (R26). -/
  w : Schedule
  /-- `KSVALID` (R27). -/
  ksvalid : Bool
  /-- `OPA` (R25). -/
  opa : Byte
  /-- `OPB` (R25). -/
  opb : Byte
  /-- `PROD` (R25). -/
  prod : Byte
  /-- `BUSY`, `STATUS` bit 0 (R28). -/
  busy : Bool
  /-- `DONE`, `STATUS` bit 1 (R28). -/
  done : Bool
  /-- `ERR`, `STATUS` bit 2 (R28). -/
  err : Bool
  /-- `ERRCODE` (R30). -/
  errcode : Byte
  /-- `ERRINFO` (R30). -/
  errinfo : Byte
  /-- `DIE`, `CTRL` bit 0 (R29). -/
  die : Bool
  /-- `EIE`, `CTRL` bit 1 (R29). -/
  eie : Bool
  /-- `SEQ.OP` (R38). -/
  seqOp : Byte
  /-- `SEQ.CNT` (R38). -/
  seqCnt : Nat
  /-- The model's own: the pins of the coming cycles, oldest first; when it is empty the host makes no access (log 4). -/
  host : List Pins
  /-- The model's own: the values the host's reads returned, newest first (R238, log 5). -/
  reads : List Byte
  /-- The model's own: how many free values have been drawn (log 6). -/
  draws : Nat
  /-- The model's own: how many leading bytes of `KEY` have been written since reset (R41, log 2). -/
  keyHi : Nat
  /-- The model's own: how many leading bytes of `BLK` have been written since reset (R41, log 2). -/
  blkHi : Nat
  /-- The model's own: whether `W` has been written since reset (R41, log 2). -/
  wDef : Bool
  deriving DecidableEq, Repr

/-- The ways a step can stop. The hardware never stops (93_implementation_defined.md Part 1): its errors are recorded
and the machine goes on. -/
inductive Fault where
  /-- Raised by `step` when `BUSY = 1` and `SEQ.OP` is not the byte of a command that can be busy. R180 never makes
  such a state, so no run reaches it; safe (log 9). -/
  | seqOpNotBusyCommand
  deriving DecidableEq, Repr

/-- The ways an instruction can have no meaning in the model. -/
inductive Refusal where
  /-- Raised by `exec` for a command whose meaning is not written yet; no arm does so in this model. Safe. -/
  | notModelled (mnemonic : String)
  deriving DecidableEq, Repr

/-- The state after reset: R220. `KEY`, `BLK`, `W` are ANY8 there and `SEQ` is unspecified: DESIGN CHOICE zero (log 1,
log 3); `keyHi`, `blkHi`, `wDef` say that none of those bytes has been written, so no read returns one (log 2). No
host input is pending, no value has been read and none drawn: DESIGN CHOICE (log 4, log 5, log 6). -/
def State.reset : State where
  key := Vector.replicate 16 0#8
  keylen := 0#5
  blk := Vector.replicate 16 0#8
  blklen := 0#5
  w := Vector.replicate 176 0#8
  ksvalid := false
  opa := 0x00#8
  opb := 0x00#8
  prod := 0x00#8
  busy := false
  done := false
  err := false
  errcode := 0x00#8
  errinfo := 0x00#8
  die := false
  eie := false
  seqOp := 0x00#8
  seqCnt := 0
  host := []
  reads := []
  draws := 0
  keyHi := 0
  blkHi := 0
  wDef := false

end Sys2Proof.Machine
end

