-- ==== Sys2Proof/Machine/Flags.lean ====
section
/-! DEFINITION. Flags and status bytes: the layout of STATUS (R28), CTRL (R29) and ERRINFO (R201), the cause codes
(R190), the ready flags (R20) and the interrupt output (R205). -/

namespace Sys2Proof.Machine

/-- The error causes (R190). -/
inductive Cause where
  /-- A needed key or block is not 16 bytes long (R191). -/
  | length
  /-- A reserved command byte (R192). -/
  | cmd
  /-- A write that is refused because the core is busy (R193). -/
  | busy
  deriving DecidableEq, Repr

/-- The code recorded in `ERRCODE` (R190). -/
def causeCode : Cause → Byte
  | .length => 0x01#8
  | .cmd => 0x02#8
  | .busy => 0x03#8

/-- `KEYRDY`: `KEYLEN == 16` and nothing else (R20, R37). -/
def keyRdy (s : State) : Bool := s.keylen == 16#5

/-- `BLKRDY`: `BLKLEN == 16` and nothing else (R20, R37). -/
def blkRdy (s : State) : Bool := s.blklen == 16#5

/-- What a read of `STATUS` returns: `{0, 0, BLKRDY, KEYRDY, KSVALID, ERR, DONE, BUSY}`, bit 7 first (R28, R70). -/
def statusByte (s : State) : Byte :=
  0#2 ++ BitVec.ofBool (blkRdy s) ++ BitVec.ofBool (keyRdy s) ++ BitVec.ofBool s.ksvalid ++ BitVec.ofBool s.err ++
    BitVec.ofBool s.done ++ BitVec.ofBool s.busy

/-- What a read of `CTRL` returns: `{0, 0, 0, 0, 0, 0, EIE, DIE}` (R29, R70). -/
def ctrlByte (s : State) : Byte := 0#6 ++ BitVec.ofBool s.eie ++ BitVec.ofBool s.die

/-- `ERRINFO` of a length error: `{op, 0, 0, BLKBAD, KEYBAD}` (R201). -/
def lengthInfo (op : BitVec 4) (blkBad keyBad : Bool) : Byte :=
  op ++ 0#2 ++ BitVec.ofBool blkBad ++ BitVec.ofBool keyBad

/-- `ERRINFO` of a busy error: the low 8 bits of the address written to (R190, R201). -/
def busyInfo (a : Addr) : Byte := a.extractLsb' 0 8

/-- The `irq` output, level-sensitive: `(DONE & DIE) | (ERR & EIE)` (R205). -/
def irq (s : State) : Bool := (s.done && s.die) || (s.err && s.eie)

/-- The `busy` output equals `STATUS.BUSY` (R60). -/
def busyOut (s : State) : Bool := s.busy

/-- Zero extension of a length counter to the 8-bit data bus (R68). -/
def lenByte (l : Len) : Byte := l.setWidth 8

end Sys2Proof.Machine
end

