-- ==== Sys2Proof/Machine/Operands.lean ====
section
/-! DEFINITION. The operands of the commands: which need the key or the block and which can be busy (the columns of
R102), the round index of ARK (R103), and the byte arrays as matrix columns, words and round keys (R9). -/

namespace Sys2Proof.Machine

/-! ### The addresses the host writes to (R65, R70) -/

/-- `CMD`. -/
def Port.cmd : Addr := 0x000#10

/-- `STATUS`. -/
def Port.status : Addr := 0x001#10

/-- `CTRL`. -/
def Port.ctrl : Addr := 0x002#10

/-- `KEYIN`. -/
def Port.keyin : Addr := 0x005#10

/-- `BLKIN`. -/
def Port.blkin : Addr := 0x006#10

/-- `OPA`. -/
def Port.opa : Addr := 0x009#10

/-- `OPB`. -/
def Port.opb : Addr := 0x00A#10

/-! ### The columns of the opcode map (R102) -/

/-- "needs key" of R102: refused unless `KEYLEN == 16`. -/
def needsKey : Instr → Bool
  | .enc | .dec | .expand | .ark _ => true
  | .nop | .gfmul | .subb | .isubb | .shr | .ishr | .mixc | .imixc | .clr _ _ => false

/-- "needs block" of R102: refused unless `BLKLEN == 16`. -/
def needsBlock : Instr → Bool
  | .enc | .dec | .subb | .isubb | .shr | .ishr | .mixc | .imixc | .ark _ => true
  | .nop | .expand | .gfmul | .clr _ _ => false

/-- "busy" of R102: once accepted the command makes `BUSY = 1` and sets `DONE` at completion. -/
def isBusyCommand : Instr → Bool
  | .enc | .dec | .expand | .gfmul | .subb | .isubb | .shr | .ishr | .mixc | .imixc | .ark _ => true
  | .nop | .clr _ _ => false

/-- `KEYBAD` of R180: the command needs the key and its length is wrong. -/
def keyBad (i : Instr) (s : State) : Bool := needsKey i && !keyRdy s

/-- `BLKBAD` of R180: the command needs the block and its length is wrong. -/
def blkBad (i : Instr) (s : State) : Bool := needsBlock i && !blkRdy s

/-! ### Operand fields and byte arrays (R9, R103) -/

/-- The round index of ARK as an index of round keys, where it is legal (R103). -/
def roundIndex (r : BitVec 4) : Option (Fin 11) :=
  if h : r.toNat < 11 then some ⟨r.toNat, h⟩ else none

/-- Column `c` of a block is the word `B[4c..4c+4)` (R9). -/
def column (b : Block) (c : Fin 4) : Word := Vector.ofFn fun j : Fin 4 => b[4 * c.val + j.val]

/-- A block from its four columns (R9). -/
def ofColumns (f : Fin 4 → Word) : Block :=
  Vector.ofFn fun n : Fin 16 => (f ⟨n.val / 4, by omega⟩)[n.val % 4]

/-- Round key `r` is `W[16r..16r+16)` (R9, R26). -/
def roundKey (w : Schedule) (r : Fin 11) : Block := Vector.ofFn fun i : Fin 16 => w[16 * r.val + i.val]

/-- Word `i` of the expanded key is `W[4i..4i+4)` (R9). -/
def scheduleWord (w : Schedule) (i : Fin 44) : Word := Vector.ofFn fun j : Fin 4 => w[4 * i.val + j.val]

end Sys2Proof.Machine
end

