-- ==== Sys2Proof/Machine/Ops.lean ====
section
/-! DEFINITION. The named operations on the state: one write per register, the stream ports (R74, R75), taking an error
and acknowledging it (R200, R203), acceptance, busy cycle and completion (R180, R181), reset (R220). -/

namespace Sys2Proof.Machine

/-! ### Writes of single registers -/

/-- A command writes `BLK`, all 16 bytes at once (R155). -/
def State.setBlk (s : State) (b : Block) : State := { s with blk := b, blkHi := 16 }

/-- The key expansion writes all of `W` and sets `KSVALID` (R134). -/
def State.setSchedule (s : State) (w : Schedule) : State := { s with w := w, ksvalid := true, wDef := true }

/-- GFMUL writes `PROD` (R123). -/
def State.setProd (s : State) (v : Byte) : State := { s with prod := v }

/-- The host writes `OPA` (R76). -/
def State.setOpa (s : State) (v : Byte) : State := { s with opa := v }

/-- The host writes `OPB` (R76). -/
def State.setOpb (s : State) (v : Byte) : State := { s with opb := v }

/-- The host writes `CTRL`: `DIE <- v[0]`, `EIE <- v[1]` (R77). -/
def State.setCtrl (s : State) (v : Byte) : State := { s with die := v.getLsbD 0, eie := v.getLsbD 1 }

/-- `KEYLEN <- 0; KSVALID <- 0` (R183, K = 1). -/
def State.clearKeyLen (s : State) : State := { s with keylen := 0#5, ksvalid := false }

/-- `BLKLEN <- 0` (R183, B = 1). -/
def State.clearBlkLen (s : State) : State := { s with blklen := 0#5 }

/-- `DONE <- 0` (R203, `v[1] = 1`). -/
def State.clearDone (s : State) : State := { s with done := false }

/-- `ERR <- 0; ERRCODE <- 0x00; ERRINFO <- 0x00` (R203, `v[2] = 1`). -/
def State.clearErr (s : State) : State := { s with err := false, errcode := 0x00#8, errinfo := 0x00#8 }

/-- `ERR <- 1; ERRCODE <- code; ERRINFO <- info` (R200). -/
def State.recordErr (s : State) (code info : Byte) : State := { s with err := true, errcode := code, errinfo := info }

/-- `BUSY <- 1; DONE <- 0; SEQ.OP <- cmd; SEQ.CNT <- cnt` (R180). -/
def State.start (s : State) (cmd : Byte) (cnt : Nat) : State :=
  { s with busy := true, done := false, seqOp := cmd, seqCnt := cnt }

/-- `BUSY <- 0; DONE <- 1` (R181). -/
def State.finish (s : State) : State := { s with busy := false, done := true }

/-- `SEQ.CNT <- SEQ.CNT - 1` (R181). -/
def State.countDown (s : State) : State := { s with seqCnt := s.seqCnt - 1 }

/-- One more free value has been drawn (log 6). -/
def State.drew (s : State) : State := { s with draws := s.draws + 1 }

/-- The cycle uses up the oldest of the host's inputs (log 4). -/
def State.popHost (s : State) : State := { s with host := s.host.tail }

/-- A read returned `v` (log 5). -/
def State.logRead (s : State) (v : Byte) : State := { s with reads := v :: s.reads }

/-! ### Stream ports -/

/-- `min(LEN + 1, 31)` (R74, R75): the counter saturates. -/
def incLen (l : Len) : Len := BitVec.ofNat 5 (min (l.toNat + 1) 31)

/-- `if LEN < 16 then A[LEN] <- v`: bytes beyond the 16th are not stored (R74, R75). -/
def storeByte (a : Block) (l : Len) (v : Byte) : Block := a.setIfInBounds l.toNat v

/-- How many leading bytes have been written once the byte at index `l` has been streamed in (log 2). -/
def raiseMark (hi : Nat) (l : Len) : Nat := if l.toNat < 16 then max hi (l.toNat + 1) else hi

/-- An accepted write of `v` to `KEYIN` (R74). -/
def State.pushKey (s : State) (v : Byte) : State :=
  { s with key := storeByte s.key s.keylen v, keylen := incLen s.keylen, ksvalid := false,
           keyHi := raiseMark s.keyHi s.keylen }

/-- An accepted write of `v` to `BLKIN` (R75). -/
def State.pushBlk (s : State) (v : Byte) : State :=
  { s with blk := storeByte s.blk s.blklen v, blklen := incLen s.blklen, blkHi := raiseMark s.blkHi s.blklen }

/-! ### Errors -/

/-- `raise ERR_X(info)`, the error entry: the first error wins, later ones are dropped, nothing else changes (R200). -/
def raiseError (c : Cause) (info : Byte) (s : State) : State :=
  if s.err then s else s.recordErr (causeCode c) info

/-- A write of `v` to `STATUS`, the acknowledgement and the only "return": W1C of `DONE` and `ERR` (R203). -/
def acknowledge (v : Byte) (s : State) : State :=
  let s1 := if v.getLsbD 1 then s.clearDone else s
  if v.getLsbD 2 then s1.clearErr else s1

/-- A host write that is refused while the core is busy: `if BUSY then raise ERR_BUSY(low address byte) else f`
(R65, R193). -/
def unlessBusy (a : Addr) (f : State → State) (s : State) : State :=
  if s.busy then raiseError .busy (busyInfo a) s else f s

/-! ### Issue, busy cycle, completion -/

/-- `LAT(cmd, state)`: any integer `>= 1` (R235, log 10). -/
def latency (cmd : Byte) (s : State) : Nat := Config.latency s.draws cmd s + 1

/-- `accept(cmd)` (R180). -/
def accept (cmd : Byte) (s : State) : State := (s.start cmd (latency cmd s)).drew

/-- The issue of a busy command with `BUSY = 0`: the length checks of the lengths it needs, then acceptance (R180,
R191, R199). -/
def issue (i : Instr) (s : State) : State :=
  if keyBad i s || blkBad i s then raiseError .length (lengthInfo (opField (encode i)) (blkBad i s) (keyBad i s)) s
  else accept (encode i) s

/-- One busy cycle, the last of which performs the "at completion" part and completes (R181). -/
def busyCycle (atCompletion : State → State) (s : State) : State :=
  if s.seqCnt > 1 then s.countDown else (atCompletion s).finish

/-- What a busy command does at the next clock edge: its issue when its byte is written to `CMD` with `BUSY = 0`, one
busy cycle while `BUSY = 1` (R180, R181; log 7). -/
def busyCommand (i : Instr) (atCompletion : State → State) (s : State) : State :=
  if s.busy then busyCycle atCompletion s else issue i s

/-! ### Reset -/

/-- An edge with `rst = 1`: the reset state of R220. The host's coming inputs, the values already read and the number
of draws are not the core's and stay (log 4, log 5, log 6). -/
def resetEdge (s : State) : State :=
  { State.reset with host := s.host, reads := s.reads, draws := s.draws }

end Sys2Proof.Machine
end

