-- ==== Sys2Proof/Machine/Bus.lean ====
section
/-! DEFINITION. The host bus (`20_memory.md`): the address map of R70, what a read returns (R64, R231, R41) and what a
write does (R65), apart from a write to `CMD` of an idle core, which issues a command. -/

namespace Sys2Proof.Machine

/-- What one of the 1024 addresses names: the rows of R70. -/
inductive Loc where
  | cmd | status | ctrl | errcode | errinfo | keyin | blkin | keylen | blklen | opa | opb | prod | ident | version
  | key (i : Fin 16)
  | blk (i : Fin 16)
  | rcon (k : Fin 10)
  | w (i : Fin 176)
  | sbox (v : Byte)
  | invSbox (v : Byte)
  | reserved
  deriving DecidableEq, Repr

/-- The registers `0x000` to `0x00D` of the map; `0x00E` and `0x00F` are reserved (R70). -/
def locateRegister : Nat → Loc
  | 0x0 => .cmd
  | 0x1 => .status
  | 0x2 => .ctrl
  | 0x3 => .errcode
  | 0x4 => .errinfo
  | 0x5 => .keyin
  | 0x6 => .blkin
  | 0x7 => .keylen
  | 0x8 => .blklen
  | 0x9 => .opa
  | 0xA => .opb
  | 0xB => .prod
  | 0xC => .ident
  | 0xD => .version
  | _ => .reserved

/-- The address map of R70, the windows after the registers. -/
def locate (a : Addr) : Loc :=
  let n := a.toNat
  if n < 0x010 then locateRegister n
  else if n < 0x020 then .key (Fin.ofNat 16 (n - 0x010))
  else if n < 0x030 then .blk (Fin.ofNat 16 (n - 0x020))
  else if n < 0x03A then .rcon (Fin.ofNat 10 (n - 0x030))
  else if n < 0x100 then .reserved
  else if n < 0x1B0 then .w (Fin.ofNat 176 (n - 0x100))
  else if n < 0x200 then .reserved
  else if n < 0x300 then .sbox (BitVec.ofNat 8 (n - 0x200))
  else .invSbox (BitVec.ofNat 8 (n - 0x300))

/-- The value of a read: a byte the rules give, or `ANY8` (R12). -/
inductive ReadValue where
  | byte (v : Byte)
  | any8
  deriving DecidableEq, Repr

/-- A stored byte that may not have been written since reset (R41). -/
def ifWritten (written : Bool) (v : Byte) : ReadValue := if written then .byte v else .any8

/-- The data windows `BLK`, `W` and `PROD` return ANY8 while `BUSY = 1` (R64, R231). -/
def ifIdle (s : State) (v : ReadValue) : ReadValue := if s.busy then .any8 else v

/-- The column "R" of R70, by location. -/
def readLoc (s : State) : Loc → ReadValue
  | .cmd | .keyin | .blkin => .byte 0x00#8
  | .status => .byte (statusByte s)
  | .ctrl => .byte (ctrlByte s)
  | .errcode => .byte s.errcode
  | .errinfo => .byte s.errinfo
  | .keylen => .byte (lenByte s.keylen)
  | .blklen => .byte (lenByte s.blklen)
  | .opa => .byte s.opa
  | .opb => .byte s.opb
  | .prod => ifIdle s (.byte s.prod)
  | .ident => .byte Config.idByte
  | .version => .byte Config.versionByte
  | .key i => ifWritten (i.val < s.keyHi) s.key[i]
  | .blk i => ifIdle s (ifWritten (i.val < s.blkHi) s.blk[i])
  | .rcon k => .byte (Machine.rcon k)
  | .w i => ifIdle s (ifWritten s.wDef s.w[i])
  | .sbox v => .byte (Machine.sbox v)
  | .invSbox v => .byte (Machine.invSbox v)
  | .reserved => .byte 0x00#8

/-- `Read(S(t), addr)` (R64). -/
def busRead (s : State) (a : Addr) : ReadValue := readLoc s (locate a)

/-- Whether the cycle is a bus read, `sel = 1` and `wr = 0` (R64). -/
def Pins.isRead (p : Pins) : Bool := p.sel && !p.wr

/-- Whether the cycle is a bus write, `sel = 1` and `wr = 1` (R65). -/
def Pins.isWrite (p : Pins) : Bool := p.sel && p.wr

/-- The byte that stands for a read value: `ANY8` is a fresh draw (log 6). -/
def resolve (s : State) : ReadValue → Byte
  | .byte v => v
  | .any8 => Config.any8 s.draws s

/-- The `rdata` output of a cycle: the value read, and `0x00` in a cycle without a read (R64). -/
def rdata (s : State) (p : Pins) : Byte := if p.isRead then resolve s (busRead s p.addr) else 0x00#8

/-- What a read leaves behind: the value is recorded, and a draw counted if it was `ANY8`. The core itself is unchanged
(R64; log 5, log 6). -/
def recordRead (a : Addr) (s : State) : State :=
  match busRead s a with
  | .byte v => s.logRead v
  | .any8 => (s.logRead (resolve s .any8)).drew

/-- The effect of a host write of `v` to address `a`, by R65. A write to `CMD` of an idle core is `command(v)` of R180
and has no effect here; the cycle performs it. -/
def writeLoc (a : Addr) (v : Byte) (s : State) : Loc → State
  | .cmd => unlessBusy a id s
  | .status => acknowledge v s
  | .ctrl => s.setCtrl v
  | .keyin => unlessBusy a (fun t => t.pushKey v) s
  | .blkin => unlessBusy a (fun t => t.pushBlk v) s
  | .opa => unlessBusy a (fun t => t.setOpa v) s
  | .opb => unlessBusy a (fun t => t.setOpb v) s
  | .errcode | .errinfo | .keylen | .blklen | .prod | .ident | .version => s
  | .key _ | .blk _ | .rcon _ | .w _ | .sbox _ | .invSbox _ | .reserved => s

/-- `MemWrite(addr, 1, v)`, apart from the issue of a command (R65). -/
def busWrite (a : Addr) (v : Byte) (s : State) : State := writeLoc a v s (locate a)

end Sys2Proof.Machine
end

