-- ==== Sys2Proof/Machine/FieldMul.lean ====
section
/-! DEFINITION. The GF(2^8) multiplier (`40_gf_multiplier.md`): the functions of R120, R121 and the meaning of GFMUL. -/

namespace Sys2Proof.Machine

/-- `Xtime(a)`: doubling in the field (R120). -/
def xtime (a : Byte) : Byte :=
  if a.getLsbD 7 then (a <<< 1) ^^^ 0x1B#8 else a <<< 1

/-- The loop of `GfMul` from bit `i` of `b` on, `n` iterations left (R121). -/
def gfMulLoop (b : Byte) : Nat → Nat → Byte → Byte → Byte
  | 0, _, _, acc => acc
  | n + 1, i, a, acc => gfMulLoop b n (i + 1) (xtime a) (if b.getLsbD i then acc ^^^ a else acc)

/-- `GfMul(a, b)`: the product in GF(2^8), 8 iterations from the least significant bit of `b` (R121). -/
def gfMul (a b : Byte) : Byte := gfMulLoop b 8 0 a 0x00#8

/-- GFMUL (R123). At completion `PROD <- GfMul(OPA, OPB)`. -/
def execGfmul (s : State) : Host.Outcome State Fault Refusal :=
  .next (busyCommand .gfmul (fun t => t.setProd (gfMul t.opa t.opb)) s)

end Sys2Proof.Machine
end

