-- ==== Sys2Proof/Machine/KeySchedule.lean ====
section
/-! DEFINITION. The key-schedule expander (`41_key_schedule.md`): the functions of R130 to R133, the expansion step of
R134, R135 and the meaning of EXPAND. -/

namespace Sys2Proof.Machine

/-- `RotWord(t)`: byte 0 goes to index 3, every other byte to the next lower index (R130). -/
def rotWord (t : Word) : Word := #v[t[1], t[2], t[3], t[0]]

/-- `SubWord(t)`: every byte through `SBOX` (R131). -/
def subWord (t : Word) : Word := t.map sbox

/-- `AddRcon(t, k)`: only the first byte is changed (R132). -/
def addRcon (t : Word) (k : Fin 10) : Word := #v[t[0] ^^^ rcon k, t[1], t[2], t[3]]

/-- Exclusive or of two words, element by element (R11). -/
def xorWord (a b : Word) : Word := Vector.ofFn fun j : Fin 4 => a[j] ^^^ b[j]

/-- What `ExpandKey` makes of the previous word `t` before it forms word `i`: every 4th word is rotated, substituted and
combined with the next round constant, `RCON[i/4 - 1]` for word `i` (R133). -/
def scheduleCore (i : Nat) (t : Word) : Word :=
  if i % 4 = 0 then addRcon (subWord (rotWord t)) (Fin.ofNat 10 (i / 4 - 1)) else t

/-- The words of the expanded key, newest first: `n` words have been generated after the four copied ones, and the next
is word `n + 4`, the word 16 bytes earlier combined with what `scheduleCore` makes of the previous word (R133). -/
def scheduleWords (key : Block) : Nat → List Word
  | 0 => [column key 3, column key 2, column key 1, column key 0]
  | n + 1 =>
    match scheduleWords key n with
    | w1 :: w2 :: w3 :: w4 :: older => xorWord w4 (scheduleCore (n + 4) w1) :: w1 :: w2 :: w3 :: w4 :: older
    | short => short

/-- `ExpandKey(key)`: 44 words, word `i` being bytes `4i` to `4i + 3` of the output (R133). -/
def expandKey (key : Block) : Schedule :=
  let words := (scheduleWords key 40).reverse
  Vector.ofFn fun n : Fin 176 => (words.getD (n.val / 4) (Vector.replicate 4 0#8))[n.val % 4]

/-- The expansion step: `W <- ExpandKey(KEY); KSVALID <- 1` (R134). -/
def expand (s : State) : State := s.setSchedule (expandKey s.key)

/-- The automatic expansion of a command that reads `W`: the step is performed first if and only if `KSVALID = 0` (R135).
`KSVALID` cannot change while busy, so its value now is its value at acceptance (R181). -/
def ensureSchedule (s : State) : State := if s.ksvalid then s else expand s

/-- EXPAND (R136). It always recomputes, also when `KSVALID = 1`. -/
def execExpand (s : State) : Host.Outcome State Fault Refusal :=
  .next (busyCommand .expand expand s)

end Sys2Proof.Machine
end

