-- ==== Sys2Proof/Machine/RoundOps.lean ====
section
/-! DEFINITION. The round operations (`42_round_operations.md`): the seven functions of R140 to R146 and the meanings of
SUBB, ISUBB, SHR, ISHR, MIXC, IMIXC and ARK. -/

namespace Sys2Proof.Machine

/-- `SubBytes(B)` (R140). -/
def subBytes (b : Block) : Block := b.map sbox

/-- `InvSubBytes(B)` (R141). -/
def invSubBytes (b : Block) : Block := b.map invSbox

/-- `ShiftRows(B)[r + 4c] = B[r + 4((c + r) mod 4)]` (R142); element `n` is row `n mod 4`, column `n / 4`. -/
def shiftRows (b : Block) : Block :=
  Vector.ofFn fun n : Fin 16 => b[n.val % 4 + 4 * ((n.val / 4 + n.val % 4) % 4)]

/-- `InvShiftRows(B)[r + 4c] = B[r + 4((c - r) mod 4)]`, with `mod` giving 0 to 3 (R143). -/
def invShiftRows (b : Block) : Block :=
  Vector.ofFn fun n : Fin 16 => b[n.val % 4 + 4 * ((n.val / 4 + 4 - n.val % 4) % 4)]

/-- One row of a matrix times a column vector, with `GfMul` for the products and `^` for the sum (R144). -/
def scalarProduct (row col : Word) : Byte :=
  gfMul row[0] col[0] ^^^ gfMul row[1] col[1] ^^^ gfMul row[2] col[2] ^^^ gfMul row[3] col[3]

/-- A 4 by 4 matrix, given by its rows `M[i]`, times a column vector (R144). -/
def mulColumn (row : Fin 4 → Word) (col : Word) : Word := Vector.ofFn fun i : Fin 4 => scalarProduct (row i) col

/-- Row `M[i]` of the forward matrix, its coefficients as field elements (R144). -/
def mixRow (i : Fin 4) : Word :=
  match i with
  | 0 => #v[0x02, 0x03, 0x01, 0x01]
  | 1 => #v[0x01, 0x02, 0x03, 0x01]
  | 2 => #v[0x01, 0x01, 0x02, 0x03]
  | 3 => #v[0x03, 0x01, 0x01, 0x02]

/-- Row `N[i]` of the inverse matrix (R145). -/
def invMixRow (i : Fin 4) : Word :=
  match i with
  | 0 => #v[0x0E, 0x0B, 0x0D, 0x09]
  | 1 => #v[0x09, 0x0E, 0x0B, 0x0D]
  | 2 => #v[0x0D, 0x09, 0x0E, 0x0B]
  | 3 => #v[0x0B, 0x0D, 0x09, 0x0E]

/-- `MixColumns(B)` (R144). -/
def mixColumns (b : Block) : Block := ofColumns fun c => mulColumn mixRow (column b c)

/-- `InvMixColumns(B)` (R145). -/
def invMixColumns (b : Block) : Block := ofColumns fun c => mulColumn invMixRow (column b c)

/-- `AddRoundKey(B, w, r)[i] = B[i] ^ w[16r + i]` (R146). -/
def addRoundKey (b : Block) (w : Schedule) (r : Fin 11) : Block :=
  Vector.ofFn fun i : Fin 16 => b[i] ^^^ (roundKey w r)[i]

/-- SUBB (R147). -/
def execSubb (s : State) : Host.Outcome State Fault Refusal :=
  .next (busyCommand .subb (fun t => t.setBlk (subBytes t.blk)) s)

/-- ISUBB (R148). -/
def execIsubb (s : State) : Host.Outcome State Fault Refusal :=
  .next (busyCommand .isubb (fun t => t.setBlk (invSubBytes t.blk)) s)

/-- SHR (R149). -/
def execShr (s : State) : Host.Outcome State Fault Refusal :=
  .next (busyCommand .shr (fun t => t.setBlk (shiftRows t.blk)) s)

/-- ISHR (R150). -/
def execIshr (s : State) : Host.Outcome State Fault Refusal :=
  .next (busyCommand .ishr (fun t => t.setBlk (invShiftRows t.blk)) s)

/-- MIXC (R151). -/
def execMixc (s : State) : Host.Outcome State Fault Refusal :=
  .next (busyCommand .mixc (fun t => t.setBlk (mixColumns t.blk)) s)

/-- IMIXC (R152). -/
def execImixc (s : State) : Host.Outcome State Fault Refusal :=
  .next (busyCommand .imixc (fun t => t.setBlk (invMixColumns t.blk)) s)

/-- The "at completion" part of ARK r (R153). -/
def completeArk (r : Fin 11) (s : State) : State :=
  let t := ensureSchedule s
  t.setBlk (addRoundKey t.blk t.w r)

/-- ARK r (R153). `r` above 10 is no command: its byte raises ERR_CMD before any length check (R104, log 17). -/
def execArk (r : BitVec 4) (s : State) : Host.Outcome State Fault Refusal :=
  match roundIndex r with
  | some k => .next (busyCommand (.ark r) (completeArk k) s)
  | none => .next (raiseError .cmd (encode (.ark r)) s)

end Sys2Proof.Machine
end

