-- ==== Sys2Proof/Machine/BlockEngine.lean ====
section
/-! DEFINITION. The block transform engine (`43_block_engine.md`): `Cipher` (R160), `InvCipher` (R161) and the meanings of
ENC and DEC. -/

namespace Sys2Proof.Machine

/-- One of rounds 1 to 9: SubBytes, ShiftRows, MixColumns, AddRoundKey (R160). -/
def cipherRound (w : Schedule) (b : Block) (round : Fin 11) : Block :=
  addRoundKey (mixColumns (shiftRows (subBytes b))) w round

/-- `Cipher(B, w)` (R160): round key 0, rounds 1 to 9, the final round without MixColumns. -/
def cipher (b : Block) (w : Schedule) : Block :=
  let s := addRoundKey b w 0
  let s := [1, 2, 3, 4, 5, 6, 7, 8, 9].foldl (cipherRound w) s
  addRoundKey (shiftRows (subBytes s)) w 10

/-- One of rounds 9 to 1 of the inverse: AddRoundKey, InvMixColumns, InvShiftRows, InvSubBytes (R161). -/
def invCipherRound (w : Schedule) (b : Block) (round : Fin 11) : Block :=
  invSubBytes (invShiftRows (invMixColumns (addRoundKey b w round)))

/-- `InvCipher(B, w)` (R161): round key 10, InvShiftRows, InvSubBytes, rounds 9 down to 1, round key 0. -/
def invCipher (b : Block) (w : Schedule) : Block :=
  let s := addRoundKey b w 10
  let s := invSubBytes (invShiftRows s)
  let s := [9, 8, 7, 6, 5, 4, 3, 2, 1].foldl (invCipherRound w) s
  addRoundKey s w 0

/-- The "at completion" part of ENC (R162). -/
def completeEnc (s : State) : State :=
  let t := ensureSchedule s
  t.setBlk (cipher t.blk t.w)

/-- The "at completion" part of DEC (R163). -/
def completeDec (s : State) : State :=
  let t := ensureSchedule s
  t.setBlk (invCipher t.blk t.w)

/-- ENC (R162). -/
def execEnc (s : State) : Host.Outcome State Fault Refusal := .next (busyCommand .enc completeEnc s)

/-- DEC (R163). -/
def execDec (s : State) : Host.Outcome State Fault Refusal := .next (busyCommand .dec completeDec s)

end Sys2Proof.Machine
end

