-- ==== Sys2Proof/Machine/Control.lean ====
section
/-! DEFINITION. The control commands (`44_control_commands.md`): NOP and CLR. They act at once and have no busy cycle,
so the only way they can meet a busy core is as a write to `CMD`, which is refused (R182, R183; log 18). -/

namespace Sys2Proof.Machine

/-- NOP (R182): nothing at all. -/
def execNop (s : State) : Host.Outcome State Fault Refusal := .next (unlessBusy Port.cmd id s)

/-- The effect of CLR: K clears `KEYLEN` and `KSVALID`, B clears `BLKLEN`; no data byte is erased (R183). -/
def clearLengths (b k : Bool) (s : State) : State :=
  let t := if k then s.clearKeyLen else s
  if b then t.clearBlkLen else t

/-- CLR m (R183). -/
def execClr (b k : Bool) (s : State) : Host.Outcome State Fault Refusal :=
  .next (unlessBusy Port.cmd (clearLengths b k) s)

end Sys2Proof.Machine
end

