-- ==== Sys2Proof/Machine/Dispatch.lean ====
section
/-! DEFINITION. What each command does at the next clock edge: its issue when `BUSY = 0`, one busy cycle when `BUSY = 1`
(R180, R181; log 7). -/

namespace Sys2Proof.Machine

def exec (i : Instr) (s : State) : Host.Outcome State Fault Refusal :=
  match i with
  | .nop => Sys2Proof.Machine.execNop s
  | .enc => Sys2Proof.Machine.execEnc s
  | .dec => Sys2Proof.Machine.execDec s
  | .expand => Sys2Proof.Machine.execExpand s
  | .gfmul => Sys2Proof.Machine.execGfmul s
  | .subb => Sys2Proof.Machine.execSubb s
  | .isubb => Sys2Proof.Machine.execIsubb s
  | .shr => Sys2Proof.Machine.execShr s
  | .ishr => Sys2Proof.Machine.execIshr s
  | .mixc => Sys2Proof.Machine.execMixc s
  | .imixc => Sys2Proof.Machine.execImixc s
  | .ark r => Sys2Proof.Machine.execArk r s
  | .clr b k => Sys2Proof.Machine.execClr b k s

end Sys2Proof.Machine
end

