-- ==== Sys2Proof/Machine/Cycle.lean ====
section
/-! DEFINITION. One clock cycle (R61, R62): the pins are sampled, a read returns its value, a host write takes effect, a
busy core performs one busy cycle of its command. -/

namespace Sys2Proof.Machine

/-- A cycle without an access (R60). -/
def Pins.idle : Pins := { rst := false, sel := false, wr := false, addr := 0#10, wdata := 0#8 }

/-- A cycle with a host write of `v` to `a` (R65). -/
def Pins.write (a : Addr) (v : Byte) : Pins := { rst := false, sel := true, wr := true, addr := a, wdata := v }

/-- A cycle with a host read of `a` (R64). -/
def Pins.read (a : Addr) : Pins := { rst := false, sel := true, wr := false, addr := a, wdata := 0#8 }

/-- A cycle with `rst = 1` (R220). -/
def Pins.reset : Pins := { Pins.idle with rst := true }

/-- The pins of the present cycle: the oldest of the host's inputs, and no access when there is none (log 4). -/
def State.pins (s : State) : Pins := s.host.headD Pins.idle

/-- The cycle uses up its pins, and a read in it, also one with `rst = 1`, returns its value (R64, R220). -/
def sample (p : Pins) (s : State) : State :=
  if p.isRead then (recordRead p.addr s).popHost else s.popHost

/-- `command(v)`: what a write of `v` to `CMD` does when `BUSY = 0` (R180). -/
def command (v : Byte) (s : State) : Host.Outcome State Fault Refusal :=
  match decode v with
  | .command i => exec i s
  | .reserved _ => .next (raiseError .cmd v s)

/-- The host's write, if the cycle has one, apart from the issue of a command (R65). -/
def hostWrite (p : Pins) (s : State) : State := if p.isWrite then busWrite p.addr p.wdata s else s

/-- Whether the cycle is a write to `CMD`. -/
def Pins.writesCmd (p : Pins) : Bool := p.isWrite && locate p.addr == .cmd

/-- The busy command whose byte `SEQ.OP` holds (R38). -/
def runningCommand (s : State) : Option Instr :=
  match decode s.seqOp with
  | .command i => if isBusyCommand i then some i else none
  | .reserved _ => none

/-- Part (a) of R62 when `BUSY = 1`: one busy cycle of the running command (R181). -/
def sequencerPart (s : State) : Host.Outcome State Fault Refusal :=
  match runningCommand s with
  | some i => exec i s
  | none => .fault .seqOpNotBusyCommand

/-- The edge that ends a cycle with `rst = 0` (R62). Both parts are judged on the state at the start of the cycle. While
busy the host's write touches nothing the sequencer reads, so its effect is applied first and the busy cycle second, and
the `DONE` of a completion overrides its W1C (R204, R237; log 14). -/
def activeEdge (p : Pins) (s : State) : Host.Outcome State Fault Refusal :=
  if s.busy then sequencerPart (hostWrite p s)
  else if p.writesCmd then command p.wdata s
  else .next (hostWrite p s)

/-- One clock cycle, `S(t)` to `S(t+1)` (R62). -/
def cycle (s : State) : Host.Outcome State Fault Refusal :=
  let p := s.pins
  if p.rst then .next (resetEdge (sample p s)) else activeEdge p (sample p s)

/-- The host's next access is the write of a command byte to the idle core (log 16). -/
def State.withCommand (s : State) (v : Byte) : State :=
  { s with busy := false, host := Pins.write Port.cmd v :: s.host }

end Sys2Proof.Machine
end

