-- ==== Sys2Proof/Machine/HostProgram.lean ====
section
/-! DEFINITION. The host's notation for access sequences (`30_encoding.md` R108 to R110): the 19-bit access word, the
host lines and the pseudo-instructions, as lists of pin samples, one per clock cycle. -/

namespace Sys2Proof.Machine

/-- The 16-byte array a string of 32 hexadecimal digits denotes, read as one number: the leftmost two digits are element 0
(R10). -/
def hexBlock (n : Nat) : Block := Vector.ofFn fun i : Fin 16 => BitVec.ofNat 8 (n / 256 ^ (15 - i.val))

/-- The access word `{wr, addr[9:0], data[7:0]}`; the data field of a read is `00` (R108). -/
def accessWord (p : Pins) : BitVec 19 :=
  BitVec.ofBool p.wr ++ p.addr ++ (if p.wr then p.wdata else 0x00#8)

/-- The cycle an access word stands for (R108). -/
def ofAccessWord (x : BitVec 19) : Pins :=
  { rst := false, sel := true, wr := x.getLsbD 18, addr := x.extractLsb' 8 10, wdata := x.extractLsb' 0 8 }

/-- `CMD mnemonic [operand]`: a write of the command's byte to `CMD` (R109). -/
def cmdLine (i : Instr) : Pins := Pins.write Port.cmd (encode i)

/-- `IDLE n` (R109). -/
def idleLines (n : Nat) : List Pins := List.replicate n Pins.idle

/-- `LDKEY h`: `CMD CLR K`, then the 16 bytes from left to right to `KEYIN` (R110). -/
def ldkey (h : Block) : List Pins := cmdLine (.clr false true) :: h.toList.map (Pins.write Port.keyin)

/-- `LDBLK h`: `CMD CLR B`, then the 16 bytes from left to right to `BLKIN` (R110). -/
def ldblk (h : Block) : List Pins := cmdLine (.clr true false) :: h.toList.map (Pins.write Port.blkin)

/-- `WAIT`, taking `n` reads of `STATUS`: how many it takes is the host's, by what the reads return (R110). -/
def waitLines (n : Nat) : List Pins := List.replicate n (Pins.read Port.status)

/-- `RDBLK`: 16 reads of the `BLK` window (R110). -/
def rdblk : List Pins := (List.range 16).map fun i => Pins.read (BitVec.ofNat 10 (0x020 + i))

/-- `RDW r`: 16 reads of round key `r` in the `W` window (R110). -/
def rdw (r : Fin 11) : List Pins := (List.range 16).map fun i => Pins.read (BitVec.ofNat 10 (0x100 + 16 * r.val + i))

/-- `ACK`: clear `DONE` and `ERR` (R110). -/
def ackLine : Pins := Pins.write Port.status 0x06#8

end Sys2Proof.Machine
end

