-- ==== Sys2Proof/Machine/Transaction.lean ====
section
/-! DEFINITION. The transaction-level view (`70_reset_and_hazards.md` R237): a command is issued and, if that made the
core busy, the sequencer takes its one step "complete". The latency plays no part. And the two unit-command sequences of
R166. -/

namespace Sys2Proof.Machine

/-- The sequencer's one step "complete" for command `i`: its last busy cycle (R181, R237). -/
def completeNow (i : Instr) (s : State) : Host.Outcome State Fault Refusal := exec i { s with seqCnt := 1 }

/-- A command issued to an idle core and waited for (R237). -/
def perform (i : Instr) (s : State) : Host.Outcome State Fault Refusal :=
  match exec i s with
  | .next t => if t.busy then completeNow i t else .next t
  | stopped => stopped

/-- A sequence of commands, each waited for (R166). -/
def performAll : List Instr → State → Host.Outcome State Fault Refusal
  | [], s => .next s
  | i :: rest, s =>
    match perform i s with
    | .next t => performAll rest t
    | stopped => stopped

/-- The unit commands of round `r` of ENC (R166). -/
def encRoundCommands (r : BitVec 4) : List Instr := [.subb, .shr, .mixc, .ark r]

/-- `ARK 0; (SUBB; SHR; MIXC; ARK r) for r = 1..9; SUBB; SHR; ARK 10` (R166). -/
def encCommands : List Instr :=
  [.ark 0] ++ [1#4, 2#4, 3#4, 4#4, 5#4, 6#4, 7#4, 8#4, 9#4].flatMap encRoundCommands ++ [.subb, .shr, .ark 10]

/-- The unit commands of round `r` of DEC (R166). -/
def decRoundCommands (r : BitVec 4) : List Instr := [.ark r, .imixc, .ishr, .isubb]

/-- `ARK 10; ISHR; ISUBB; (ARK r; IMIXC; ISHR; ISUBB) for r = 9..1; ARK 0` (R166). -/
def decCommands : List Instr :=
  [.ark 10, .ishr, .isubb] ++ [9#4, 8#4, 7#4, 6#4, 5#4, 4#4, 3#4, 2#4, 1#4].flatMap decRoundCommands ++ [.ark 0]

end Sys2Proof.Machine
end

