-- ==== Sys2Proof/Safety.lean ====
section
/-! DEFINITION. What every reachable state satisfies (the invariant the spec's rules promise), and what a good run is
(R238). -/

namespace Sys2Proof.Machine

/-- The command whose byte `SEQ.OP` holds was accepted: it can be busy, and the lengths it needs are 16 (R180, R184). -/
def RunningAccepted (s : State) : Prop :=
  ∃ i, decode s.seqOp = .command i ∧ isBusyCommand i = true ∧ keyBad i s = false ∧ blkBad i s = false

/-- The information bytes of a length error: the opcode of a command that needs a length, with `BLKBAD` in bit 1 and
`KEYBAD` in bit 0, at least one of them set and each only for a length the command needs (R191, R201). -/
def LengthErrorOf (i : Instr) (info : Byte) : Prop :=
  ∃ blkbad keybad : Bool, (blkbad = true ∨ keybad = true) ∧ (blkbad = true → needsBlock i = true) ∧
    (keybad = true → needsKey i = true) ∧
    info = (encode i &&& 0xF0#8) ||| (if blkbad then 0x02#8 else 0x00#8) ||| (if keybad then 0x01#8 else 0x00#8)

/-- The pairs of `ERRCODE` and `ERRINFO` that can be recorded (R190, R201). -/
def LegalError (code info : Byte) : Prop :=
  (code = causeCode .length ∧ ∃ i, WellFormed i ∧ LengthErrorOf i info) ∨
  (code = causeCode .cmd ∧ ∃ why, decode info = .reserved why) ∨
  (code = causeCode .busy ∧ (info = 0x00#8 ∨ info = 0x05#8 ∨ info = 0x06#8 ∨ info = 0x09#8 ∨ info = 0x0A#8))

/-- What holds at reset and is kept by every clock cycle. -/
structure CoreInv (s : State) : Prop where
  /-- `BUSY = 1` only while an accepted command is being performed (R184). -/
  running : s.busy = true → RunningAccepted s
  /-- `SEQ.CNT` is positive while busy (R38). -/
  counting : s.busy = true → 1 ≤ s.seqCnt
  /-- `KSVALID = 1` means `W == ExpandKey(KEY)` (R27), and the key it was made from is 16 bytes long (R134). -/
  schedule : s.ksvalid = true → s.w = expandKey s.key ∧ s.keylen = 16#5 ∧ s.wDef = true
  /-- `ERRCODE` and `ERRINFO` are `0x00` when `ERR = 0` (R30). -/
  noError : s.err = false → s.errcode = 0x00#8 ∧ s.errinfo = 0x00#8
  /-- Only the causes of R190 are recorded, with the information of R201. -/
  legalError : s.err = true → LegalError s.errcode s.errinfo
  /-- The bytes of `KEY` below its length have been written (R41). -/
  keyMark : min s.keylen.toNat 16 ≤ s.keyHi ∧ s.keyHi ≤ 16
  /-- The bytes of `BLK` below its length have been written (R41). -/
  blkMark : min s.blklen.toNat 16 ≤ s.blkHi ∧ s.blkHi ≤ 16

/-! ### The words the statements use -/

/-- `s` with an error recorded as R200 says: the first error wins, nothing else changes. -/
def recorded (code info : Byte) (s : State) : State :=
  { s with err := true, errcode := if s.err then s.errcode else code, errinfo := if s.err then s.errinfo else info }

/-- `s` after the acceptance of command byte `c` with latency `n` (R180); a free value was drawn for the latency. -/
def accepted (c : Byte) (n : Nat) (s : State) : State :=
  { s with busy := true, done := false, seqOp := c, seqCnt := n, draws := s.draws + 1 }

/-- The information byte of a length error of a command with opcode byte `op`, which needs key and block: `op`, `BLKBAD`
in bit 1, `KEYBAD` in bit 0 (R162, R201). -/
def lengthErrorInfo (op : Byte) (s : State) : Byte :=
  op ||| (if s.blklen = 16#5 then 0x00#8 else 0x02#8) ||| (if s.keylen = 16#5 then 0x00#8 else 0x01#8)

/-- The expanded key a command that reads `W` computes with (R135). -/
def scheduleInUse (s : State) : Schedule := if s.ksvalid then s.w else expandKey s.key

/-- `s` after the automatic expansion, if one was needed (R135). -/
def expandedIfNeeded (s : State) : State :=
  { s with w := scheduleInUse s, ksvalid := true, wDef := if s.ksvalid then s.wDef else true }

/-- A write to `CMD` while busy is refused with ERR_BUSY, whatever the byte (R180, R193). -/
def CmdRefusedWhileBusy : Prop :=
  ∀ (s : State) (v : Byte), s.busy = true → hostWrite (Pins.write Port.cmd v) s = recorded 0x03#8 0x00#8 s

/-- A busy cycle of the command before its last only counts down: `BUSY` stays 1 and nothing else changes (R181). -/
def CountsDown (i : Instr) : Prop :=
  ∀ s : State, s.busy = true → 1 < s.seqCnt → exec i s = .next { s with seqCnt := s.seqCnt - 1 }

/-- The five ports whose writes are refused while busy (R193). -/
def RefusedPort (a : Addr) : Prop :=
  a = Port.cmd ∨ a = Port.keyin ∨ a = Port.blkin ∨ a = Port.opa ∨ a = Port.opb

/-- The registers of the data path agree (R20). -/
def SameData (s t : State) : Prop :=
  t.key = s.key ∧ t.keylen = s.keylen ∧ t.blk = s.blk ∧ t.blklen = s.blklen ∧ t.w = s.w ∧ t.ksvalid = s.ksvalid ∧
    t.opa = s.opa ∧ t.opb = s.opb ∧ t.prod = s.prod

/-- What the host reads at an address of the idle core: the stored bytes, seen through the address map (R70). -/
def storedAt (s : State) (a : Addr) : ReadValue := busRead { s with busy := false } a

/-- `s` after a cycle with a read: its input is used up, the value read is recorded and, if it was ANY8, a draw counted (the
record and the count are the model's own, log 5, log 6). Nothing of the core differs (R64). -/
def tookRead (s : State) : State :=
  { s with host := s.host.tail, reads := rdata s s.pins :: s.reads,
           draws := if busRead s s.pins.addr = .any8 then s.draws + 1 else s.draws }

/-- `s'` differs from `s` at most in bytes of `KEY`, `BLK` and `W` that nothing has written since reset (R41; the marks
are the model's, log 2). -/
def SameWritten (s s' : State) : Prop :=
  s' = { s with key := s'.key, blk := s'.blk, w := s'.w } ∧
  (∀ i : Fin 16, i.val < s.keyHi → s'.key[i] = s.key[i]) ∧
  (∀ i : Fin 16, i.val < s.blkHi → s'.blk[i] = s.blk[i]) ∧
  (s.wDef = true → s'.w = s.w)

/-- No cycle of the next `n` has `rst = 1`. -/
def NoResetIn (n : Nat) (s : State) : Prop := ∀ p ∈ s.host.take n, p.rst = false

/-! ### Runs -/

/-- A host program has run to its end (R238). -/
def Ended (s : State) : Prop := s.host = [] ∧ s.busy = false

/-- No write has been refused so far that is not acknowledged (R238). -/
def NoError (s : State) : Prop := s.err = false

/-- A run of `n` cycles from `s` is good: it answers a state with `ERR = 0` after each of them (R238). -/
def GoodRun (n : Nat) (s : State) : Prop :=
  ∀ k ≤ n, ∃ t, Host.Core.run Sys2Proof.core k s = .next t ∧ NoError t

end Sys2Proof.Machine
end

