-- ==== Sys2Proof/Certificates/Slice0/Obligations.lean ====
section
/-! DEFINITION. The statements about AES128-CORE, each from the numbered rules its docstring names. A statement about a free
value (`LAT`, `ANY8`) holds for every value of it. -/

section
open Sys2Proof Sys2Proof.Machine

/-! ### Encoding -/

/-- R101, R102, R106: the encoder's byte of every well-formed command decodes to that command, with its operands. -/
def Obligations.DecodeOfEncodeIsTheCommand : Prop :=
  ∀ i : Instr, WellFormed i → decode (encode i) = .command i

/-- R102, R105, R106: a byte that decodes to a command is the encoding of that command, which is well-formed. So no two
bytes stand for one command. -/
def Obligations.DecodedByteIsTheEncoding : Prop :=
  ∀ (c : Byte) (i : Instr), decode c = .command i → WellFormed i ∧ encode i = c

/-- R104: the reserved bytes are exactly the four groups (a) to (d), 230 of them, and one written to `CMD` of an idle core
does `raise ERR_CMD(cmd)` and nothing else. -/
def Obligations.ReservedBytesRaiseErrCmd : Prop :=
  (∀ c : Byte, (∃ why, decode c = .reserved why) ↔
    (c.toNat / 16 ≤ 0xA ∧ c.toNat % 16 ≠ 0) ∨ (0xBB ≤ c.toNat ∧ c.toNat ≤ 0xBF) ∨
    (0xC4 ≤ c.toNat ∧ c.toNat ≤ 0xCF) ∨ 0xD0 ≤ c.toNat) ∧
  ((List.range 256).filter fun n => match decode (BitVec.ofNat 8 n) with
    | .reserved _ => true
    | .command _ => false).length = 230 ∧
  ∀ (s : State) (c : Byte) (why : Reserved), s.busy = false → s.pins = Pins.write Port.cmd c →
    decode c = .reserved why → step s = .next (recorded 0x02#8 c { s with host := s.host.tail })

/-- R102: one byte of each row of the opcode map, written out from the table. -/
def Obligations.TableBytesDecode : Prop :=
  decode 0b00000000#8 = .command .nop ∧ decode 0b00010000#8 = .command .enc ∧ decode 0b00100000#8 = .command .dec ∧
  decode 0b00110000#8 = .command .expand ∧ decode 0b01000000#8 = .command .gfmul ∧
  decode 0b01010000#8 = .command .subb ∧ decode 0b01100000#8 = .command .isubb ∧ decode 0b01110000#8 = .command .shr ∧
  decode 0b10000000#8 = .command .ishr ∧ decode 0b10010000#8 = .command .mixc ∧
  decode 0b10100000#8 = .command .imixc ∧ decode 0b10110011#8 = .command (.ark 3) ∧
  decode 0b11000001#8 = .command (.clr false true) ∧ decode 0b11000010#8 = .command (.clr true false)

/-- R108: reading the 19-bit access word of a bus access gives the access back. -/
def Obligations.AccessWordRoundTrip : Prop :=
  ∀ p : Pins, p.rst = false → p.sel = true → (p.wr = false → p.wdata = 0x00#8) → ofAccessWord (accessWord p) = p

/-! ### A step runs the decoded command -/

/-- R180: in a cycle in which the host writes a legal byte to `CMD` of an idle core, the step is the command's meaning at
the state with that cycle's input used up. -/
def Obligations.StepIssuesTheDecodedCommand : Prop :=
  ∀ (s : State) (c : Byte) (i : Instr), s.busy = false → s.pins = Pins.write Port.cmd c → decode c = .command i →
    step s = exec i { s with host := s.host.tail }

/-- R62, R181: in a cycle of a busy core with `rst = 0`, the step is the meaning of the command in `SEQ.OP`, after the
cycle's read has been recorded and its host write, judged busy, has taken effect. -/
def Obligations.StepRunsTheBusyCommand : Prop :=
  ∀ (s : State) (i : Instr), s.pins.rst = false → s.busy = true → decode s.seqOp = .command i →
    isBusyCommand i = true → step s = exec i (hostWrite s.pins (sample s.pins s))

/-- R100, R180 (with the model's own `withFetchWord`, log 16): with the byte of a well-formed command as the host's next
access to the idle core, the very next step is that command's meaning, and the access is used up. -/
def Obligations.FetchWordIsIssuedNext : Prop :=
  ∀ (s : State) (i : Instr), WellFormed i →
    decodeTableWord 8 (encode i).toNat = some i ∧
    step (s.withFetchWord 8 (encode i).toNat) = exec i { s with busy := false }

/-! ### The commands, one rule each -/

/-- R182: NOP changes no state at all; written while busy it raises ERR_BUSY; `0x01` to `0x0F` are not NOP and raise
ERR_CMD. -/
def Obligations.NopDoesNothing : Prop :=
  decode 0x00#8 = .command .nop ∧ CmdRefusedWhileBusy ∧
  (∀ s : State, s.busy = false → exec .nop s = .next s) ∧
  ∀ (s : State) (c : Byte), 0 < c.toNat → c.toNat < 16 → command c s = .next (recorded 0x02#8 c s)

/-- R183: CLR m clears `KEYLEN` and `KSVALID` when K = 1 and `BLKLEN` when B = 1, at once, and nothing else; `0xC4` to
`0xCF` raise ERR_CMD; written while busy it raises ERR_BUSY; and no cycle without reset lowers a length counter but
that of a CLR with the counter's mask bit. -/
def Obligations.ClrClearsLengths : Prop :=
  decode 0xC0#8 = .command (.clr false false) ∧ decode 0xC1#8 = .command (.clr false true) ∧
  decode 0xC2#8 = .command (.clr true false) ∧ decode 0xC3#8 = .command (.clr true true) ∧ CmdRefusedWhileBusy ∧
  (∀ (s : State) (b k : Bool), s.busy = false →
    exec (.clr b k) s = .next { s with keylen := if k then 0#5 else s.keylen,
                                       ksvalid := if k then false else s.ksvalid,
                                       blklen := if b then 0#5 else s.blklen }) ∧
  (∀ (s : State) (c : Byte), 0xC4 ≤ c.toNat → c.toNat ≤ 0xCF → command c s = .next (recorded 0x02#8 c s)) ∧
  ∀ s t : State, step s = .next t → s.pins.rst = false →
    (t.keylen.toNat < s.keylen.toNat →
      s.busy = false ∧ s.pins.writesCmd = true ∧ ∃ b, decode s.pins.wdata = .command (.clr b true)) ∧
    (t.blklen.toNat < s.blklen.toNat →
      s.busy = false ∧ s.pins.writesCmd = true ∧ ∃ k, decode s.pins.wdata = .command (.clr true k))

/-- R123: GFMUL is accepted by any idle core; at completion `PROD <- GfMul(OPA, OPB)` and nothing else of the data path
changes; its corner cases and its example. -/
def Obligations.GfmulMultiplies : Prop :=
  decode 0x40#8 = .command .gfmul ∧ CmdRefusedWhileBusy ∧ CountsDown .gfmul ∧
  (∀ s : State, s.busy = false → ∃ n, 1 ≤ n ∧ exec .gfmul s = .next (accepted 0x40#8 n s)) ∧
  (∀ s : State, s.busy = true → s.seqCnt = 1 →
    exec .gfmul s = .next { s with prod := gfMul s.opa s.opb, busy := false, done := true }) ∧
  (∀ v : Byte, gfMul 0x00#8 v = 0x00#8 ∧ gfMul v 0x00#8 = 0x00#8 ∧ gfMul v 0x01#8 = v) ∧
  gfMul 0x57#8 0x83#8 = 0xC1#8

/-- R136: EXPAND is refused with ERR_LENGTH(0x31) unless `KEYLEN == 16`; at completion `W <- ExpandKey(KEY)` and
`KSVALID <- 1`, also when `KSVALID = 1` before; `BLKLEN` is not looked at; its example. -/
def Obligations.ExpandExpandsTheKey : Prop :=
  decode 0x30#8 = .command .expand ∧ CmdRefusedWhileBusy ∧ CountsDown .expand ∧
  (∀ s : State, s.busy = false → s.keylen ≠ 16#5 → exec .expand s = .next (recorded 0x01#8 0x31#8 s)) ∧
  (∀ s : State, s.busy = false → s.keylen = 16#5 → ∃ n, 1 ≤ n ∧ exec .expand s = .next (accepted 0x30#8 n s)) ∧
  (∀ s : State, s.busy = true → s.seqCnt = 1 →
    exec .expand s = .next { s with w := expandKey s.key, ksvalid := true, wDef := true, busy := false, done := true }) ∧
  roundKey (expandKey (hexBlock 0x000102030405060708090a0b0c0d0e0f)) 1 = hexBlock 0xd6aa74fdd2af72fadaa678f1d6ab76fe ∧
  roundKey (expandKey (hexBlock 0x000102030405060708090a0b0c0d0e0f)) 10 = hexBlock 0x13111d7fe3944a17f307a78b4d2b30c5

/-- R162: ENC is refused with ERR_LENGTH unless key and block are 16 bytes long; at completion the key is expanded if
`KSVALID = 0` and `BLK <- Cipher(BLK, W)`. Where `KSVALID = 1` means what R27 says, `W` is the schedule of the key. A DEC
on the result restores the plaintext; its example is DOC0's known answer. -/
def Obligations.EncEncrypts : Prop :=
  decode 0x10#8 = .command .enc ∧ CmdRefusedWhileBusy ∧ CountsDown .enc ∧
  (∀ s : State, s.busy = false → (s.keylen ≠ 16#5 ∨ s.blklen ≠ 16#5) →
    exec .enc s = .next (recorded 0x01#8 (lengthErrorInfo 0x10#8 s) s)) ∧
  (∀ s : State, s.busy = false → s.keylen = 16#5 → s.blklen = 16#5 →
    ∃ n, 1 ≤ n ∧ exec .enc s = .next (accepted 0x10#8 n s)) ∧
  (∀ s : State, s.busy = true → s.seqCnt = 1 →
    exec .enc s = .next { expandedIfNeeded s with blk := cipher s.blk (scheduleInUse s), blkHi := 16,
                                                  busy := false, done := true }) ∧
  (∀ s : State, (s.ksvalid = true → s.w = expandKey s.key) → scheduleInUse s = expandKey s.key) ∧
  (∀ (b : Block) (w : Schedule), invCipher (cipher b w) w = b) ∧
  cipher (hexBlock 0x00112233445566778899aabbccddeeff) (expandKey (hexBlock 0x000102030405060708090a0b0c0d0e0f)) =
    hexBlock 0x69c4e0d86a7b0430d8cdb78070b4c55a

/-- R163: DEC, in the same form with `InvCipher`, for every 16-byte block; its example. -/
def Obligations.DecDecrypts : Prop :=
  decode 0x20#8 = .command .dec ∧ CmdRefusedWhileBusy ∧ CountsDown .dec ∧
  (∀ s : State, s.busy = false → (s.keylen ≠ 16#5 ∨ s.blklen ≠ 16#5) →
    exec .dec s = .next (recorded 0x01#8 (lengthErrorInfo 0x20#8 s) s)) ∧
  (∀ s : State, s.busy = false → s.keylen = 16#5 → s.blklen = 16#5 →
    ∃ n, 1 ≤ n ∧ exec .dec s = .next (accepted 0x20#8 n s)) ∧
  (∀ s : State, s.busy = true → s.seqCnt = 1 →
    exec .dec s = .next { expandedIfNeeded s with blk := invCipher s.blk (scheduleInUse s), blkHi := 16,
                                                  busy := false, done := true }) ∧
  (∀ s : State, (s.ksvalid = true → s.w = expandKey s.key) → scheduleInUse s = expandKey s.key) ∧
  invCipher (hexBlock 0x69c4e0d86a7b0430d8cdb78070b4c55a) (expandKey (hexBlock 0x000102030405060708090a0b0c0d0e0f)) =
    hexBlock 0x00112233445566778899aabbccddeeff

/-- R147, R148: SUBB and ISUBB need the block only; at completion every byte of `BLK` is replaced by its image in `SBOX`
or `INVSBOX`, and the two undo each other; their examples. -/
def Obligations.SubbAndIsubbSubstitute : Prop :=
  decode 0x50#8 = .command .subb ∧ decode 0x60#8 = .command .isubb ∧ CmdRefusedWhileBusy ∧
  CountsDown .subb ∧ CountsDown .isubb ∧
  (∀ s : State, s.busy = false → s.blklen ≠ 16#5 →
    exec .subb s = .next (recorded 0x01#8 0x52#8 s) ∧ exec .isubb s = .next (recorded 0x01#8 0x62#8 s)) ∧
  (∀ s : State, s.busy = false → s.blklen = 16#5 →
    (∃ n, 1 ≤ n ∧ exec .subb s = .next (accepted 0x50#8 n s)) ∧
    ∃ n, 1 ≤ n ∧ exec .isubb s = .next (accepted 0x60#8 n s)) ∧
  (∀ s : State, s.busy = true → s.seqCnt = 1 →
    exec .subb s = .next { s with blk := Vector.ofFn fun i : Fin 16 => sbox s.blk[i], blkHi := 16,
                                  busy := false, done := true } ∧
    exec .isubb s = .next { s with blk := Vector.ofFn fun i : Fin 16 => invSbox s.blk[i], blkHi := 16,
                                   busy := false, done := true }) ∧
  (∀ b : Block, invSubBytes (subBytes b) = b ∧ subBytes (invSubBytes b) = b) ∧
  subBytes (hexBlock 0x00102030405060708090a0b0c0d0e0f0) = hexBlock 0x63cab7040953d051cd60e0e7ba70e18c ∧
  invSubBytes (hexBlock 0x63cab7040953d051cd60e0e7ba70e18c) = hexBlock 0x00102030405060708090a0b0c0d0e0f0

/-- R149, R150: SHR and ISHR need the block only; at completion `BLK` is permuted by the index lists of R142 and R143;
four SHR restore the block, and SHR and ISHR undo each other; their examples. -/
def Obligations.ShrAndIshrRotateRows : Prop :=
  decode 0x70#8 = .command .shr ∧ decode 0x80#8 = .command .ishr ∧ CmdRefusedWhileBusy ∧
  CountsDown .shr ∧ CountsDown .ishr ∧
  (∀ s : State, s.busy = false → s.blklen ≠ 16#5 →
    exec .shr s = .next (recorded 0x01#8 0x72#8 s) ∧ exec .ishr s = .next (recorded 0x01#8 0x82#8 s)) ∧
  (∀ s : State, s.busy = false → s.blklen = 16#5 →
    (∃ n, 1 ≤ n ∧ exec .shr s = .next (accepted 0x70#8 n s)) ∧
    ∃ n, 1 ≤ n ∧ exec .ishr s = .next (accepted 0x80#8 n s)) ∧
  (∀ s : State, s.busy = true → s.seqCnt = 1 →
    exec .shr s = .next { s with
      blk := #v[s.blk[0], s.blk[5], s.blk[10], s.blk[15], s.blk[4], s.blk[9], s.blk[14], s.blk[3],
                s.blk[8], s.blk[13], s.blk[2], s.blk[7], s.blk[12], s.blk[1], s.blk[6], s.blk[11]],
      blkHi := 16, busy := false, done := true } ∧
    exec .ishr s = .next { s with
      blk := #v[s.blk[0], s.blk[13], s.blk[10], s.blk[7], s.blk[4], s.blk[1], s.blk[14], s.blk[11],
                s.blk[8], s.blk[5], s.blk[2], s.blk[15], s.blk[12], s.blk[9], s.blk[6], s.blk[3]],
      blkHi := 16, busy := false, done := true }) ∧
  (∀ b : Block, shiftRows (shiftRows (shiftRows (shiftRows b))) = b ∧ invShiftRows (shiftRows b) = b ∧
    shiftRows (invShiftRows b) = b) ∧
  shiftRows (hexBlock 0x000102030405060708090a0b0c0d0e0f) = hexBlock 0x00050a0f04090e03080d02070c01060b ∧
  invShiftRows (hexBlock 0x000102030405060708090a0b0c0d0e0f) = hexBlock 0x000d0a0704010e0b0805020f0c090603

/-- R151, R152: MIXC and IMIXC need the block only; at completion `BLK <- MixColumns(BLK)` or `InvMixColumns(BLK)`, and
`OPA`, `OPB`, `PROD` are untouched; the two undo each other; the corner cases and the examples. -/
def Obligations.MixcAndImixcMixColumns : Prop :=
  decode 0x90#8 = .command .mixc ∧ decode 0xA0#8 = .command .imixc ∧ CmdRefusedWhileBusy ∧
  CountsDown .mixc ∧ CountsDown .imixc ∧
  (∀ s : State, s.busy = false → s.blklen ≠ 16#5 →
    exec .mixc s = .next (recorded 0x01#8 0x92#8 s) ∧ exec .imixc s = .next (recorded 0x01#8 0xA2#8 s)) ∧
  (∀ s : State, s.busy = false → s.blklen = 16#5 →
    (∃ n, 1 ≤ n ∧ exec .mixc s = .next (accepted 0x90#8 n s)) ∧
    ∃ n, 1 ≤ n ∧ exec .imixc s = .next (accepted 0xA0#8 n s)) ∧
  (∀ s : State, s.busy = true → s.seqCnt = 1 →
    exec .mixc s = .next { s with blk := mixColumns s.blk, blkHi := 16, busy := false, done := true } ∧
    exec .imixc s = .next { s with blk := invMixColumns s.blk, blkHi := 16, busy := false, done := true }) ∧
  (∀ b : Block, invMixColumns (mixColumns b) = b ∧ mixColumns (invMixColumns b) = b) ∧
  mixColumns (hexBlock 0x00000000000000000000000000000000) = hexBlock 0x00000000000000000000000000000000 ∧
  mixColumns (hexBlock 0xffffffffffffffffffffffffffffffff) = hexBlock 0xffffffffffffffffffffffffffffffff ∧
  mixColumns (hexBlock 0x6353e08c0960e104cd70b751bacad0e7) = hexBlock 0x5f72641557f5bc92f7be3b291db9f91a ∧
  invMixColumns (hexBlock 0x5f72641557f5bc92f7be3b291db9f91a) = hexBlock 0x6353e08c0960e104cd70b751bacad0e7

/-- R144: the bytes of a column mixed by MixColumns, written out: `s'[i]` is the sum of the products of row `i` of the
forward matrix with the column; its two examples. -/
def Obligations.MixColumnsBytes : Prop :=
  (∀ (b : Block) (c : Fin 4),
    column (mixColumns b) c =
      (let s := column b c
       #v[gfMul 2 s[0] ^^^ gfMul 3 s[1] ^^^ s[2] ^^^ s[3], s[0] ^^^ gfMul 2 s[1] ^^^ gfMul 3 s[2] ^^^ s[3],
          s[0] ^^^ s[1] ^^^ gfMul 2 s[2] ^^^ gfMul 3 s[3], gfMul 3 s[0] ^^^ s[1] ^^^ s[2] ^^^ gfMul 2 s[3]])) ∧
  mixColumns (hexBlock 0x6353e08c0960e104cd70b751bacad0e7) = hexBlock 0x5f72641557f5bc92f7be3b291db9f91a ∧
  mulColumn mixRow #v[0xDB, 0x13, 0x53, 0x45] = #v[0x8E, 0x4D, 0xA1, 0xBC]

/-- R153: ARK r needs key and block; its length error carries the opcode, not `r`; at completion the key is expanded if
`KSVALID = 0` and byte `i` of `BLK` is combined with `W[16r + i]`. `0xBB` to `0xBF` raise ERR_CMD before any length
check. ARK r twice restores the block, ARK 0 combines with the key itself; its example. -/
def Obligations.ArkAddsTheRoundKey : Prop :=
  (∀ r : BitVec 4, r.toNat ≤ 10 → decode (0xB0#8 + r.setWidth 8) = .command (.ark r) ∧ CountsDown (.ark r)) ∧
  CmdRefusedWhileBusy ∧
  (∀ (s : State) (r : BitVec 4), r.toNat ≤ 10 → s.busy = false → (s.keylen ≠ 16#5 ∨ s.blklen ≠ 16#5) →
    exec (.ark r) s = .next (recorded 0x01#8 (lengthErrorInfo 0xB0#8 s) s)) ∧
  (∀ (s : State) (r : BitVec 4), r.toNat ≤ 10 → s.busy = false → s.keylen = 16#5 → s.blklen = 16#5 →
    ∃ n, 1 ≤ n ∧ exec (.ark r) s = .next (accepted (0xB0#8 + r.setWidth 8) n s)) ∧
  (∀ (s : State) (r : BitVec 4) (h : r.toNat ≤ 10), s.busy = true → s.seqCnt = 1 →
    exec (.ark r) s = .next { expandedIfNeeded s with
      blk := Vector.ofFn fun i : Fin 16 => s.blk[i] ^^^ (scheduleInUse s)[16 * r.toNat + i.val],
      blkHi := 16, busy := false, done := true }) ∧
  (∀ (s : State) (c : Byte), 0xBB ≤ c.toNat → c.toNat ≤ 0xBF → command c s = .next (recorded 0x02#8 c s)) ∧
  (∀ (b : Block) (w : Schedule) (r : Fin 11), addRoundKey (addRoundKey b w r) w r = b) ∧
  (∀ b key : Block, addRoundKey b (expandKey key) 0 = Vector.ofFn fun i : Fin 16 => b[i] ^^^ key[i]) ∧
  addRoundKey (hexBlock 0x00112233445566778899aabbccddeeff)
    (expandKey (hexBlock 0x000102030405060708090a0b0c0d0e0f)) 0 = hexBlock 0x00102030405060708090a0b0c0d0e0f0

/-! ### What all commands share -/

/-- R180, R191: every command that needs a key or a block whose length is not 16 is refused with ERR_LENGTH: `ERRINFO` is
its opcode with `BLKBAD` in bit 1 and `KEYBAD` in bit 0, each set only for a length the command needs, and nothing
but the three error registers changes. -/
def Obligations.WrongLengthIsRefused : Prop :=
  ∀ (i : Instr) (s : State), WellFormed i → s.busy = false →
    ((needsKey i = true ∧ s.keylen ≠ 16#5) ∨ (needsBlock i = true ∧ s.blklen ≠ 16#5)) →
    exec i s = .next (recorded 0x01#8
      ((encode i &&& 0xF0#8) ||| (if needsBlock i = true ∧ s.blklen ≠ 16#5 then 0x02#8 else 0x00#8) |||
        (if needsKey i = true ∧ s.keylen ≠ 16#5 then 0x01#8 else 0x00#8)) s)

/-- R180: with the lengths it needs right, every busy command is accepted by an idle core: `BUSY <- 1`, `DONE <- 0`,
`SEQ.OP <- v`, `SEQ.CNT <- LAT`, a number that is at least 1, and nothing else. -/
def Obligations.RightLengthsAreAccepted : Prop :=
  ∀ (i : Instr) (s : State), WellFormed i → isBusyCommand i = true → s.busy = false →
    (needsKey i = true → s.keylen = 16#5) → (needsBlock i = true → s.blklen = 16#5) →
    ∃ n, 1 ≤ n ∧ exec i s = .next (accepted (encode i) n s)

/-- R181: a busy cycle of any command only counts down while `SEQ.CNT > 1`; the cycle with `SEQ.CNT == 1` clears `BUSY`
and sets `DONE`. -/
def Obligations.BusyCyclesCountDown : Prop :=
  ∀ (i : Instr) (s : State), WellFormed i → isBusyCommand i = true → s.busy = true →
    (1 < s.seqCnt → exec i s = .next { s with seqCnt := s.seqCnt - 1 }) ∧
    (s.seqCnt = 1 → ∃ t, exec i s = .next t ∧ t.busy = false ∧ t.done = true)

/-- R40: what no command writes, and what each command leaves alone: `KEY`, `OPA`, `OPB`, `CTRL` always; the lengths but
for CLR; `PROD` but for GFMUL; `W` but for EXPAND, ENC, DEC, ARK; `BLK` but for the block commands; the error
registers unless the command is refused. -/
def Obligations.CommandWriteSets : Prop :=
  ∀ (i : Instr) (s t : State), WellFormed i → exec i s = .next t →
    t.key = s.key ∧ t.opa = s.opa ∧ t.opb = s.opb ∧ t.die = s.die ∧ t.eie = s.eie ∧ t.keyHi = s.keyHi ∧
    t.host = s.host ∧ t.reads = s.reads ∧
    ((∀ b, i ≠ .clr b true) → t.keylen = s.keylen) ∧ ((∀ k, i ≠ .clr true k) → t.blklen = s.blklen) ∧
    (i ≠ .gfmul → t.prod = s.prod) ∧
    (i ∉ [.enc, .dec, .expand] → (∀ r, i ≠ .ark r) → t.w = s.w ∧ t.wDef = s.wDef ∧
      ((∀ b, i ≠ .clr b true) → t.ksvalid = s.ksvalid)) ∧
    (i ∉ [.enc, .dec, .subb, .isubb, .shr, .ishr, .mixc, .imixc] → (∀ r, i ≠ .ark r) →
      t.blk = s.blk ∧ t.blkHi = s.blkHi) ∧
    ((s.busy = true ∧ isBusyCommand i = true) ∨ (keyBad i s = false ∧ blkBad i s = false ∧ s.busy = false) →
      t.err = s.err ∧ t.errcode = s.errcode ∧ t.errinfo = s.errinfo)

/-- R40, R70: the bytes the host can read at the addresses from `0x010` on, as a frame. A command that does not write `BLK`
leaves every byte of the `BLK` window alone; a command that does not write `W` leaves every byte of the `W` window
alone; every command leaves every byte outside the two windows alone. -/
def Obligations.CommandsLeaveOtherBytes : Prop :=
  ∀ (i : Instr) (s t : State) (a : Addr), WellFormed i → exec i s = .next t → 0x010 ≤ a.toNat →
    (0x020 ≤ a.toNat ∧ a.toNat < 0x030 → i ∉ [.enc, .dec, .subb, .isubb, .shr, .ishr, .mixc, .imixc] →
      (∀ r, i ≠ .ark r) → storedAt t a = storedAt s a) ∧
    (0x100 ≤ a.toNat ∧ a.toNat < 0x1B0 → i ∉ [.enc, .dec, .expand] → (∀ r, i ≠ .ark r) →
      storedAt t a = storedAt s a) ∧
    (¬(0x020 ≤ a.toNat ∧ a.toNat < 0x030) → ¬(0x100 ≤ a.toNat ∧ a.toNat < 0x1B0) → storedAt t a = storedAt s a)

/-! ### The bus -/

/-- R74: a write to `KEYIN`: the byte is stored at the index the counter names if that is below 16, the counter saturates
at 31, `KSVALID <- 0`; refused while busy with ERR_BUSY(0x05). (`keyHi` is the model's mark of written bytes, log 2.) -/
def Obligations.KeyinStreamsOneByte : Prop :=
  (∀ (s : State) (v : Byte), s.busy = false → s.pins = Pins.write Port.keyin v →
    step s = .next { s with
      host := s.host.tail,
      key := if h : s.keylen.toNat < 16 then s.key.set s.keylen.toNat v else s.key,
      keylen := BitVec.ofNat 5 (min (s.keylen.toNat + 1) 31),
      ksvalid := false,
      keyHi := if s.keylen.toNat < 16 then max s.keyHi (s.keylen.toNat + 1) else s.keyHi }) ∧
  ∀ (s : State) (v : Byte), s.busy = true → hostWrite (Pins.write Port.keyin v) s = recorded 0x03#8 0x05#8 s

/-- R75: a write to `BLKIN`, in the same form; `KSVALID` is not touched. -/
def Obligations.BlkinStreamsOneByte : Prop :=
  (∀ (s : State) (v : Byte), s.busy = false → s.pins = Pins.write Port.blkin v →
    step s = .next { s with
      host := s.host.tail,
      blk := if h : s.blklen.toNat < 16 then s.blk.set s.blklen.toNat v else s.blk,
      blklen := BitVec.ofNat 5 (min (s.blklen.toNat + 1) 31),
      blkHi := if s.blklen.toNat < 16 then max s.blkHi (s.blklen.toNat + 1) else s.blkHi }) ∧
  ∀ (s : State) (v : Byte), s.busy = true → hostWrite (Pins.write Port.blkin v) s = recorded 0x03#8 0x06#8 s

/-- R74, R75, R191: "never silently truncate": a byte written to `KEYIN` of an idle core whose key is already 16 bytes long
or longer is not stored but counted, and then every command that needs the key is refused with `KEYBAD`; the same for
`BLKIN` and `BLKBAD`. -/
def Obligations.OverlongLoadIsReported : Prop :=
  (∀ (s : State) (v : Byte), s.busy = false → 16 ≤ s.keylen.toNat → s.pins = Pins.write Port.keyin v →
    ∃ t, step s = .next t ∧ t.key = s.key ∧ 17 ≤ t.keylen.toNat ∧ s.keylen.toNat ≤ t.keylen.toNat ∧
      ∀ i : Instr, WellFormed i → needsKey i = true → ∃ info : Byte, info.getLsbD 0 = true ∧
        exec i t = .next (recorded 0x01#8 info t)) ∧
  ∀ (s : State) (v : Byte), s.busy = false → 16 ≤ s.blklen.toNat → s.pins = Pins.write Port.blkin v →
    ∃ t, step s = .next t ∧ t.blk = s.blk ∧ 17 ≤ t.blklen.toNat ∧ s.blklen.toNat ≤ t.blklen.toNat ∧
      ∀ i : Instr, WellFormed i → needsBlock i = true → ∃ info : Byte, info.getLsbD 1 = true ∧
        exec i t = .next (recorded 0x01#8 info t)

/-- R76, R77: a write to `OPA` or `OPB` of an idle core stores the byte, of a busy core is refused; a write to `CTRL`
sets `DIE` and `EIE` from bits 0 and 1 at any time. -/
def Obligations.OperandAndControlWrites : Prop :=
  (∀ (s : State) (v : Byte), s.busy = false →
    (s.pins = Pins.write Port.opa v → step s = .next { s with host := s.host.tail, opa := v }) ∧
    (s.pins = Pins.write Port.opb v → step s = .next { s with host := s.host.tail, opb := v }) ∧
    (s.pins = Pins.write Port.ctrl v →
      step s = .next { s with host := s.host.tail, die := v.getLsbD 0, eie := v.getLsbD 1 })) ∧
  ∀ (s : State) (v : Byte), s.busy = true →
    hostWrite (Pins.write Port.opa v) s = recorded 0x03#8 0x09#8 s ∧
    hostWrite (Pins.write Port.opb v) s = recorded 0x03#8 0x0A#8 s ∧
    hostWrite (Pins.write Port.ctrl v) s = { s with die := v.getLsbD 0, eie := v.getLsbD 1 }

/-- R203: a write to `STATUS` clears `DONE` if bit 1 is 1 and the three error registers if bit 2 is 1, busy or not; the
other bits are ignored. In a busy cycle the sequencer's part is added after it, so that a completion sets `DONE`. -/
def Obligations.StatusWriteAcknowledges : Prop :=
  ∀ (s : State) (v : Byte),
    hostWrite (Pins.write Port.status v) s =
      { s with done := if v.getLsbD 1 then false else s.done,
               err := if v.getLsbD 2 then false else s.err,
               errcode := if v.getLsbD 2 then 0x00#8 else s.errcode,
               errinfo := if v.getLsbD 2 then 0x00#8 else s.errinfo } ∧
    (s.busy = false → s.pins = Pins.write Port.status v →
      step s = .next (hostWrite (Pins.write Port.status v) { s with host := s.host.tail })) ∧
    ∀ i : Instr, s.busy = true → s.pins = Pins.write Port.status v → decode s.seqOp = .command i →
      isBusyCommand i = true → step s = exec i (hostWrite (Pins.write Port.status v) { s with host := s.host.tail })

/-- R204: a completion at the same edge as a W1C of `DONE` leaves `DONE = 1`; the W1C of `ERR` at that edge, which nothing
can collide with, takes effect. -/
def Obligations.DoneSetWinsOverClear : Prop :=
  ∀ (s : State) (i : Instr) (v : Byte), s.busy = true → s.seqCnt = 1 → decode s.seqOp = .command i →
    isBusyCommand i = true → s.pins = Pins.write Port.status v →
    ∃ t, step s = .next t ∧ t.busy = false ∧ t.done = true ∧ t.err = if v.getLsbD 2 then false else s.err

/-- R72: a write to an address that is not `CMD`, `STATUS`, `CTRL`, `KEYIN`, `BLKIN`, `OPA` or `OPB` has no effect
whatever, busy or not; reserved addresses and the write-only ports read `0x00`. -/
def Obligations.OtherWritesAreIgnored : Prop :=
  (∀ (s : State) (a : Addr) (v : Byte), a ≠ Port.status → a ≠ Port.ctrl → ¬RefusedPort a →
    hostWrite (Pins.write a v) s = s ∧
    (s.busy = false → s.pins = Pins.write a v → step s = .next { s with host := s.host.tail })) ∧
  ∀ (s : State) (a : Addr),
    (a = Port.cmd ∨ a = Port.keyin ∨ a = Port.blkin ∨ a = 0x00E#10 ∨ a = 0x00F#10 ∨
      (0x03A ≤ a.toNat ∧ a.toNat ≤ 0x0FF) ∨ (0x1B0 ≤ a.toNat ∧ a.toNat ≤ 0x1FF)) →
    busRead s a = .byte 0x00#8

/-- R193, R230: a write to one of the five ports while busy raises ERR_BUSY with the low address byte, and the running
command goes on as if the write had not happened; no other access of a busy core raises an error. -/
def Obligations.BusyWritesAreRefused : Prop :=
  (∀ (s : State) (i : Instr) (a : Addr) (v : Byte), s.busy = true → decode s.seqOp = .command i →
    isBusyCommand i = true → RefusedPort a → s.pins = Pins.write a v →
    step s = exec i (recorded 0x03#8 (a.extractLsb' 0 8) { s with host := s.host.tail })) ∧
  ∀ (s : State) (p : Pins), s.busy = true → ¬(p.isWrite = true ∧ RefusedPort p.addr) →
    (hostWrite p s).err = true → s.err = true ∧ (hostWrite p s).errcode = s.errcode ∧
      (hostWrite p s).errinfo = s.errinfo

/-- R200, R202: while `ERR = 1` no further error is recorded: neither a refused write nor a refused or reserved command
changes the three error registers. -/
def Obligations.FirstErrorWins : Prop :=
  ∀ s : State, s.err = true →
    (∀ p : Pins, (p.isWrite = true → p.addr ≠ Port.status) →
      (hostWrite p s).err = true ∧ (hostWrite p s).errcode = s.errcode ∧ (hostWrite p s).errinfo = s.errinfo) ∧
    ∀ c : Byte, ∃ t, command c s = .next t ∧ t.err = true ∧ t.errcode = s.errcode ∧ t.errinfo = s.errinfo

/-- R64: a cycle with a read returns its value and changes no state of the core (the record of values read and the count of
draws are the model's own, log 5, log 6): of an idle core the step is that, and of a busy core the running command's busy
cycle is added, as it is to a cycle without an access. A defined value is returned as it is; a cycle without a read
returns `0x00`. -/
def Obligations.ReadsHaveNoSideEffect : Prop :=
  (∀ s : State, s.pins.rst = false → s.pins.sel = true → s.pins.wr = false →
    (s.busy = false → step s = .next (tookRead s)) ∧
    ∀ i : Instr, s.busy = true → decode s.seqOp = .command i → isBusyCommand i = true → step s = exec i (tookRead s)) ∧
  (∀ s : State, s.pins.rst = false → s.pins.sel = false →
    (s.busy = false → step s = .next { s with host := s.host.tail }) ∧
    ∀ i : Instr, s.busy = true → decode s.seqOp = .command i → isBusyCommand i = true →
      step s = exec i { s with host := s.host.tail }) ∧
  (∀ (s : State) (p : Pins) (v : Byte), p.sel = true → p.wr = false → busRead s p.addr = .byte v → rdata s p = v) ∧
  ∀ (s : State) (p : Pins), (p.sel = false ∨ p.wr = true) → rdata s p = 0x00#8

/-- R70, R41: the column "R" of the address map for an idle core, all 1024 addresses. A byte of `KEY`, `BLK` or `W` that has not been written
since reset reads ANY8 (the marks `keyHi`, `blkHi`, `wDef` are the model's, log 2). -/
def Obligations.ReadColumnOfTheMap : Prop :=
  ∀ s : State, s.busy = false →
    busRead s 0x000#10 = .byte 0x00#8 ∧ busRead s 0x005#10 = .byte 0x00#8 ∧ busRead s 0x006#10 = .byte 0x00#8 ∧
    busRead s 0x00E#10 = .byte 0x00#8 ∧ busRead s 0x00F#10 = .byte 0x00#8 ∧
    (∀ a : Addr, (0x03A ≤ a.toNat ∧ a.toNat ≤ 0x0FF) ∨ (0x1B0 ≤ a.toNat ∧ a.toNat ≤ 0x1FF) →
      busRead s a = .byte 0x00#8) ∧
    busRead s 0x001#10 = .byte (0#2 ++ BitVec.ofBool (s.blklen == 16#5) ++ BitVec.ofBool (s.keylen == 16#5) ++
      BitVec.ofBool s.ksvalid ++ BitVec.ofBool s.err ++ BitVec.ofBool s.done ++ BitVec.ofBool s.busy) ∧
    busRead s 0x002#10 = .byte (0#6 ++ BitVec.ofBool s.eie ++ BitVec.ofBool s.die) ∧
    busRead s 0x003#10 = .byte s.errcode ∧ busRead s 0x004#10 = .byte s.errinfo ∧
    busRead s 0x007#10 = .byte (s.keylen.setWidth 8) ∧ busRead s 0x008#10 = .byte (s.blklen.setWidth 8) ∧
    busRead s 0x009#10 = .byte s.opa ∧ busRead s 0x00A#10 = .byte s.opb ∧ busRead s 0x00B#10 = .byte s.prod ∧
    busRead s 0x00C#10 = .byte 0xAE#8 ∧ busRead s 0x00D#10 = .byte 0x10#8 ∧
    (∀ i : Fin 16, busRead s (BitVec.ofNat 10 (0x010 + i.val)) = if i.val < s.keyHi then .byte s.key[i] else .any8) ∧
    (∀ i : Fin 16, busRead s (BitVec.ofNat 10 (0x020 + i.val)) = if i.val < s.blkHi then .byte s.blk[i] else .any8) ∧
    (∀ k : Fin 10, busRead s (BitVec.ofNat 10 (0x030 + k.val)) = .byte (rcon k)) ∧
    (∀ i : Fin 176, busRead s (BitVec.ofNat 10 (0x100 + i.val)) = if s.wDef then .byte s.w[i] else .any8) ∧
    (∀ v : Byte, busRead s (BitVec.ofNat 10 (0x200 + v.toNat)) = .byte (sbox v)) ∧
    ∀ v : Byte, busRead s (BitVec.ofNat 10 (0x300 + v.toNat)) = .byte (invSbox v)

/-- R231: while busy every read of the `BLK` and `W` windows and of `PROD` returns ANY8, and every other read returns what
it would return of the idle core, but for the `BUSY` bit of `STATUS`, which is 1. -/
def Obligations.ReadsWhileBusy : Prop :=
  ∀ (s : State) (a : Addr), s.busy = true →
    ((a = 0x00B#10 ∨ (0x020 ≤ a.toNat ∧ a.toNat < 0x030) ∨ (0x100 ≤ a.toNat ∧ a.toNat < 0x1B0)) →
      busRead s a = .any8) ∧
    (¬(a = 0x00B#10 ∨ (0x020 ≤ a.toNat ∧ a.toNat < 0x030) ∨ (0x100 ≤ a.toNat ∧ a.toNat < 0x1B0)) →
      a ≠ Port.status → busRead s a = storedAt s a) ∧
    busRead s Port.status = .byte (0#2 ++ BitVec.ofBool (s.blklen == 16#5) ++ BitVec.ofBool (s.keylen == 16#5) ++
      BitVec.ofBool s.ksvalid ++ BitVec.ofBool s.err ++ BitVec.ofBool s.done ++ 1#1)

/-! ### Reset and interrupt -/

/-- R220, R222: a cycle with `rst = 1` leads to the reset state, whatever else happens in it, busy or not: every register
at its reset value and no byte of `KEY`, `BLK`, `W` defined. A read in that cycle returns its value as usual (the record
of values read is the model's, log 5). -/
def Obligations.ResetEdgeResets : Prop :=
  ∀ s : State, s.pins.rst = true → ∃ t, step s = .next t ∧
    t.keylen = 0#5 ∧ t.blklen = 0#5 ∧ t.ksvalid = false ∧ t.opa = 0x00#8 ∧ t.opb = 0x00#8 ∧ t.prod = 0x00#8 ∧
    t.busy = false ∧ t.done = false ∧ t.err = false ∧ t.errcode = 0x00#8 ∧ t.errinfo = 0x00#8 ∧
    t.die = false ∧ t.eie = false ∧ t.host = s.host.tail ∧
    t.reads = (if s.pins.isRead then rdata s s.pins :: s.reads else s.reads) ∧
    (∀ i : Fin 16, busRead t (BitVec.ofNat 10 (0x010 + i.val)) = .any8 ∧
      busRead t (BitVec.ofNat 10 (0x020 + i.val)) = .any8) ∧
    ∀ i : Fin 176, busRead t (BitVec.ofNat 10 (0x100 + i.val)) = .any8

/-- R221: what the host sees after reset. -/
def Obligations.WhatTheHostSeesAfterReset : Prop :=
  let s := State.reset
  busRead s 0x001#10 = .byte 0x00#8 ∧ busRead s 0x002#10 = .byte 0x00#8 ∧ busRead s 0x003#10 = .byte 0x00#8 ∧
  busRead s 0x004#10 = .byte 0x00#8 ∧ busRead s 0x007#10 = .byte 0x00#8 ∧ busRead s 0x008#10 = .byte 0x00#8 ∧
  busRead s 0x009#10 = .byte 0x00#8 ∧ busRead s 0x00A#10 = .byte 0x00#8 ∧ busRead s 0x00B#10 = .byte 0x00#8 ∧
  busRead s 0x00C#10 = .byte 0xAE#8 ∧ busRead s 0x00D#10 = .byte 0x10#8 ∧ busyOut s = false ∧ irq s = false ∧
  (∀ i : Fin 16, busRead s (BitVec.ofNat 10 (0x010 + i.val)) = .any8 ∧
    busRead s (BitVec.ofNat 10 (0x020 + i.val)) = .any8) ∧
  ∀ i : Fin 176, busRead s (BitVec.ofNat 10 (0x100 + i.val)) = .any8

/-- R205: `irq` is high exactly when a pending source is enabled; enabling the source of a pending bit raises it at the
next edge; a completion with `DIE = 1` raises it. -/
def Obligations.InterruptOutput : Prop :=
  (∀ s : State, irq s = true ↔ (s.done = true ∧ s.die = true) ∨ (s.err = true ∧ s.eie = true)) ∧
  (∀ s : State, s.busy = false → s.done = true → s.pins = Pins.write Port.ctrl 0x01#8 →
    ∃ t, step s = .next t ∧ irq t = true) ∧
  ∀ (s : State) (i : Instr), s.busy = true → s.seqCnt = 1 → WellFormed i → isBusyCommand i = true → s.die = true →
    ∃ t, exec i s = .next t ∧ irq t = true

/-! ### Whole-machine rules -/

/-- R27, R85: every cycle that changes `KEY` or `KEYLEN` leaves `KSVALID = 0`. -/
def Obligations.KeyChangeInvalidatesTheSchedule : Prop :=
  ∀ s t : State, step s = .next t → (t.key ≠ s.key ∨ t.keylen ≠ s.keylen) → t.ksvalid = false

/-- R184: `BUSY` rises only by the acceptance of a command: the host wrote the byte of a busy command to `CMD` of the idle
core and the lengths it needs were 16. -/
def Obligations.BusyRisesOnlyByAcceptance : Prop :=
  ∀ s t : State, step s = .next t → s.busy = false → t.busy = true →
    s.pins.rst = false ∧ s.pins.isWrite = true ∧ s.pins.addr = Port.cmd ∧
    ∃ i, decode s.pins.wdata = .command i ∧ isBusyCommand i = true ∧ t.seqOp = s.pins.wdata ∧ 1 ≤ t.seqCnt ∧
      (needsKey i = true → s.keylen = 16#5) ∧ (needsBlock i = true → s.blklen = 16#5)

/-- R234: `DONE` rises only at a completion, and every completion leaves it 1; it falls only at an acceptance, at a write
of `STATUS` with bit 1 set, or at reset, and every acceptance leaves it 0. So NOP, CLR and refused commands leave it
alone. -/
def Obligations.DoneBelongsToTheLastCommand : Prop :=
  ∀ s t : State, step s = .next t →
    (s.done = false → t.done = true → s.pins.rst = false ∧ s.busy = true ∧ s.seqCnt ≤ 1 ∧ t.busy = false) ∧
    (s.busy = true → t.busy = false → s.pins.rst = false → t.done = true) ∧
    (s.done = true → t.done = false →
      s.pins.rst = true ∨ (s.pins.isWrite = true ∧ s.pins.addr = Port.status ∧ s.pins.wdata.getLsbD 1 = true) ∨
      (s.busy = false ∧ t.busy = true)) ∧
    (s.busy = false → t.busy = true → t.done = false)

/-! ### The functions -/

/-- R32, R35: the two substitution tables are mutually inverse, so each is a permutation; each round constant is the field
double of the one before it, and the first is `0x01`. -/
def Obligations.ConstantTables : Prop :=
  (∀ v : Byte, invSbox (sbox v) = v ∧ sbox (invSbox v) = v) ∧
  rcon 0 = 0x01#8 ∧ ∀ k : Fin 9, rcon k.succ = xtime (rcon k.castSucc)

/-- R122: the laws of `GfMul`. They are the spec's own inference from R120 and R121, which it marks as derived and checked
in part by samples. -/
def Obligations.GfMulLaws : Prop :=
  (∀ a : Byte, gfMul a 0x00#8 = 0x00#8 ∧ gfMul 0x00#8 a = 0x00#8 ∧ gfMul a 0x01#8 = a ∧ gfMul 0x01#8 a = a ∧
    gfMul a 0x02#8 = xtime a) ∧
  (∀ a b : Byte, gfMul a b = gfMul b a) ∧
  (∀ a b : Byte, a ≠ 0x00#8 → b ≠ 0x00#8 → gfMul a b ≠ 0x00#8) ∧
  (∀ a b c : Byte, gfMul a (b ^^^ c) = gfMul a b ^^^ gfMul a c) ∧
  ∀ a b c : Byte, gfMul (gfMul a b) c = gfMul a (gfMul b c)

/-- R145: the bytes of a column mixed by InvMixColumns, written out; "Forward and inverse are exact matrix inverses of one
another over the field", so the two cancel, in both orders, for every block; its two examples. -/
def Obligations.InvMixColumnsCancels : Prop :=
  (∀ (b : Block) (c : Fin 4),
    column (invMixColumns b) c =
      (let s := column b c
       #v[gfMul 14 s[0] ^^^ gfMul 11 s[1] ^^^ gfMul 13 s[2] ^^^ gfMul 9 s[3],
          gfMul 9 s[0] ^^^ gfMul 14 s[1] ^^^ gfMul 11 s[2] ^^^ gfMul 13 s[3],
          gfMul 13 s[0] ^^^ gfMul 9 s[1] ^^^ gfMul 14 s[2] ^^^ gfMul 11 s[3],
          gfMul 11 s[0] ^^^ gfMul 13 s[1] ^^^ gfMul 9 s[2] ^^^ gfMul 14 s[3]])) ∧
  (∀ i k : Fin 4, (gfMul (invMixRow i)[0] (mixRow 0)[k] ^^^ gfMul (invMixRow i)[1] (mixRow 1)[k] ^^^
      gfMul (invMixRow i)[2] (mixRow 2)[k] ^^^ gfMul (invMixRow i)[3] (mixRow 3)[k]) =
    if i = k then 1#8 else 0#8) ∧
  (∀ b : Block, invMixColumns (mixColumns b) = b ∧ mixColumns (invMixColumns b) = b) ∧
  invMixColumns (hexBlock 0x5f72641557f5bc92f7be3b291db9f91a) = hexBlock 0x6353e08c0960e104cd70b751bacad0e7 ∧
  mulColumn invMixRow #v[0x01, 0x00, 0x00, 0x00] = #v[0x0E, 0x09, 0x0D, 0x0B]

/-- R146: byte `i` of AddRoundKey is `B[i] ^ w[16r + i]`; it is its own inverse, and none of the other six functions is; its
two examples. -/
def Obligations.AddRoundKeyIsItsOwnInverse : Prop :=
  (∀ (b : Block) (w : Schedule) (r : Fin 11),
    (∀ i : Fin 16, (addRoundKey b w r)[i] = b[i] ^^^ w[16 * r.val + i.val]) ∧
    addRoundKey (addRoundKey b w r) w r = b) ∧
  (∀ f ∈ [subBytes, invSubBytes, shiftRows, invShiftRows, mixColumns, invMixColumns], ∃ b : Block, f (f b) ≠ b) ∧
  (let w := expandKey (hexBlock 0x000102030405060708090a0b0c0d0e0f)
   addRoundKey (hexBlock 0x00112233445566778899aabbccddeeff) w 0 = hexBlock 0x00102030405060708090a0b0c0d0e0f0 ∧
   addRoundKey (hexBlock 0x5f72641557f5bc92f7be3b291db9f91a) w 1 = hexBlock 0x89d810e8855ace682d1843d8cb128fe4)

/-- R133: the first 16 bytes of the expanded key are the key (R137 infers so too), and every later word is the word 16 bytes
earlier combined with the previous word, which every 4th time is rotated, substituted and combined with `RCON[i/4 - 1]`. -/
def Obligations.ExpandKeyRecurrence : Prop :=
  ∀ key : Block, (∀ i : Fin 16, (expandKey key)[i.val] = key[i]) ∧
    ∀ (i : Fin 44) (h : 4 ≤ i.val),
      let w := expandKey key
      let t := scheduleWord w ⟨i.val - 1, by omega⟩
      scheduleWord w i = xorWord (scheduleWord w ⟨i.val - 4, by omega⟩)
        (if i.val % 4 = 0 then addRcon (subWord (rotWord t)) ⟨i.val / 4 - 1, by omega⟩ else t)

/-- R164: decryption undoes encryption, and the reverse, for every block and every 176-byte schedule. The extension from
expanded keys to every schedule, and the reverse direction, are the spec's own inference, which it marks as derived. -/
def Obligations.InvCipherUndoesCipher : Prop :=
  ∀ (b : Block) (w : Schedule), invCipher (cipher b w) w = b ∧ cipher (invCipher b w) w = b

/-- R166, the spec's own inference, which it marks as derived: from an idle core with key and block loaded, the 40 unit
commands of ENC leave the data path as one ENC does, and the 40 of DEC as one DEC does. -/
def Obligations.BlockCommandsAreUnitCommands : Prop :=
  ∀ s : State, s.busy = false → s.keylen = 16#5 → s.blklen = 16#5 →
    encCommands.length = 40 ∧ decCommands.length = 40 ∧
    (∃ t u, perform .enc s = .next t ∧ performAll encCommands s = .next u ∧ SameData t u ∧
      t.busy = false ∧ u.busy = false ∧ u.err = s.err) ∧
    ∃ t u, perform .dec s = .next t ∧ performAll decCommands s = .next u ∧ SameData t u ∧
      t.busy = false ∧ u.busy = false ∧ u.err = s.err

/-! ### Invariant, progress, isolation -/

/-- The invariant holds after reset. -/
def Obligations.InvariantHoldsAtReset : Prop := CoreInv State.reset

/-- Every clock cycle keeps the invariant (R27, R30, R38, R41, R184, R190). -/
def Obligations.StepKeepsTheInvariant : Prop :=
  ∀ s t : State, CoreInv s → step s = .next t → CoreInv t

/-- 93_implementation_defined.md Part 1: no situation is stuck. From every state that meets the invariant a step answers a
next state, whatever the host does. -/
def Obligations.NothingIsStuck : Prop :=
  ∀ s : State, CoreInv s → ∃ t, step s = .next t

/-- R41: no command computes with a byte that nothing has written since reset. Take two states that differ at most in such
bytes. The host reads the same at every address of both. A command that runs has all the bytes it reads written, and its
busy cycles answer states that again differ at most in unwritten bytes; the issue of a command answers such states too,
but for the latency, which R235 lets depend on anything. -/
def Obligations.CommandsReadOnlyWrittenBytes : Prop :=
  ∀ (s s' : State) (i : Instr), CoreInv s → SameWritten s s' →
    (∀ a, busRead s' a = busRead s a) ∧
    (s.busy = true → decode s.seqOp = .command i →
      (needsKey i = true → s.keyHi = 16) ∧ (needsBlock i = true → s.blkHi = 16) ∧ (s.ksvalid = true → s.wDef = true) ∧
      ∃ t t', exec i s = .next t ∧ exec i s' = .next t' ∧ SameWritten t t' ∧ ∀ a, busRead t' a = busRead t a) ∧
    (s.busy = false → WellFormed i →
      ∃ t t', exec i s = .next t ∧ exec i s' = .next t' ∧ SameWritten { t with seqCnt := t'.seqCnt } t' ∧
        ∀ a, busRead t' a = busRead t a)

/-- R181, R235: a running command completes after exactly `SEQ.CNT` cycles without reset, whatever else the host does in
them: until then `BUSY = 1` and no register of the data path changes, and then `BUSY = 0`, `DONE = 1` and the data
path is what the "at completion" part makes of the data at the start. -/
def Obligations.RunningCommandCompletes : Prop :=
  ∀ (s : State) (i : Instr), s.busy = true → 1 ≤ s.seqCnt → decode s.seqOp = .command i → isBusyCommand i = true →
    NoResetIn s.seqCnt s →
    (∀ k < s.seqCnt, ∃ t, Host.Core.run core k s = .next t ∧ t.busy = true ∧ t.seqCnt = s.seqCnt - k ∧ SameData s t) ∧
    ∃ t u, Host.Core.run core s.seqCnt s = .next t ∧ completeNow i s = .next u ∧ t.busy = false ∧ t.done = true ∧
      SameData u t

/-- R237: the cycle model agrees with the transaction view. A command issued to an idle core with the lengths it needs
right is accepted by the first step; with `L >= 1` the `SEQ.CNT` of the state `a` that step answers, and no reset in the `L`
cycles that follow, `BUSY = 1` in each of them and after them the data path is what the one step "complete" leaves,
whatever else the host does, then or later. -/
def Obligations.CyclesRefineTransactions : Prop :=
  ∀ (s : State) (i : Instr), WellFormed i → isBusyCommand i = true → s.busy = false → keyBad i s = false →
    blkBad i s = false → s.pins = cmdLine i →
    ∃ a, step s = .next a ∧ a = accepted (encode i) a.seqCnt { s with host := s.host.tail } ∧ 1 ≤ a.seqCnt ∧
      (NoResetIn a.seqCnt a →
        (∀ k < a.seqCnt, ∃ t, Host.Core.run core (1 + k) s = .next t ∧ t.busy = true) ∧
        ∃ t u, Host.Core.run core (1 + a.seqCnt) s = .next t ∧ perform i s = .next u ∧ t.busy = false ∧ t.done = true ∧
          SameData u t)

/-- R83, R193, R230: isolation. Two busy cores that agree on the data path and the sequencer still agree after a cycle
without reset, whatever their hosts do in it and however their other registers differ. -/
def Obligations.HostCannotDisturbARunningCommand : Prop :=
  ∀ (s₁ s₂ : State) (i : Instr), SameData s₁ s₂ → s₁.busy = true → s₂.busy = true → s₂.seqOp = s₁.seqOp →
    s₂.seqCnt = s₁.seqCnt → decode s₁.seqOp = .command i → isBusyCommand i = true → s₁.pins.rst = false →
    s₂.pins.rst = false →
    ∃ t₁ t₂, step s₁ = .next t₁ ∧ step s₂ = .next t₂ ∧ SameData t₁ t₂ ∧ t₂.busy = t₁.busy ∧ t₂.seqOp = t₁.seqOp ∧
      t₂.seqCnt = t₁.seqCnt

/-! ### Whole sequences of accesses -/

/-- R74, R75, R110: `LDKEY h` leaves `KEY = h` and `KEYLEN = 16`, and `LDBLK h` leaves `BLK = h` and `BLKLEN = 16`, for
every `h` and from every idle core, in 17 cycles. -/
def Obligations.LoadSequencesLoad : Prop :=
  ∀ (s : State) (h : Block) (rest : List Pins), s.busy = false →
    (s.host = ldkey h ++ rest →
      Host.Core.run core 17 s = .next { s with key := h, keylen := 16#5, ksvalid := false, keyHi := max s.keyHi 16,
                                               host := rest }) ∧
    (s.host = ldblk h ++ rest →
      Host.Core.run core 17 s = .next { s with blk := h, blklen := 16#5, blkHi := max s.blkHi 16, host := rest })

/-- R111, R162, R163: `encrypt_block` and `decrypt_block` on the bus. From every idle core, loading any key and any block
and issuing ENC (or DEC) takes 35 cycles and leaves a state `a` in which that command runs with `L >= 1` its `SEQ.CNT`. If
the `L` cycles that follow have no reset, then after them the transformed block is in `BLK`, readable by the host, and
the schedule of the key in `W`, whatever the host does later; if the host writes nothing in those cycles, no error is
recorded. -/
def Obligations.BlocksAreTransformedThroughTheBus : Prop :=
  ∀ (s : State) (k p : Block) (rest : List Pins) (dec : Bool), s.busy = false →
    s.host = ldkey k ++ (ldblk p ++ (cmdLine (if dec then .dec else .enc) :: rest)) →
    ∃ a, Host.Core.run core 35 s = .next a ∧ a.busy = true ∧ a.seqOp = (if dec then 0x20#8 else 0x10#8) ∧
      1 ≤ a.seqCnt ∧ a.host = rest ∧ ((∀ q ∈ rest.take a.seqCnt, q.rst = false) →
      ∃ t, Host.Core.run core (35 + a.seqCnt) s = .next t ∧ t.busy = false ∧ t.done = true ∧
        t.host = rest.drop a.seqCnt ∧ t.key = k ∧ t.w = expandKey k ∧ t.ksvalid = true ∧
        t.blk = (if dec then invCipher p (expandKey k) else cipher p (expandKey k)) ∧
        (∀ i : Fin 16, busRead t (BitVec.ofNat 10 (0x020 + i.val)) = .byte t.blk[i]) ∧
        ((∀ q ∈ rest.take a.seqCnt, q.isWrite = false) →
          t.err = s.err ∧ t.errcode = s.errcode ∧ t.errinfo = s.errinfo))

end
end

