-- ==== Sys2Proof/Laws/State.lean ====
section
/-! SUPPORT. One lemma per field for each single update of the state (Machine/Ops.lean), each true by `rfl`, so that no
later proof unfolds a record update. -/

namespace Sys2Proof.Machine.State

variable (s : State)

/-! ### setBlk -/

@[simp] theorem setBlk_key (b : Block) : (s.setBlk b).key = s.key := rfl
@[simp] theorem setBlk_keylen (b : Block) : (s.setBlk b).keylen = s.keylen := rfl
@[simp] theorem setBlk_blk (b : Block) : (s.setBlk b).blk = b := rfl
@[simp] theorem setBlk_blklen (b : Block) : (s.setBlk b).blklen = s.blklen := rfl
@[simp] theorem setBlk_w (b : Block) : (s.setBlk b).w = s.w := rfl
@[simp] theorem setBlk_ksvalid (b : Block) : (s.setBlk b).ksvalid = s.ksvalid := rfl
@[simp] theorem setBlk_opa (b : Block) : (s.setBlk b).opa = s.opa := rfl
@[simp] theorem setBlk_opb (b : Block) : (s.setBlk b).opb = s.opb := rfl
@[simp] theorem setBlk_prod (b : Block) : (s.setBlk b).prod = s.prod := rfl
@[simp] theorem setBlk_busy (b : Block) : (s.setBlk b).busy = s.busy := rfl
@[simp] theorem setBlk_done (b : Block) : (s.setBlk b).done = s.done := rfl
@[simp] theorem setBlk_err (b : Block) : (s.setBlk b).err = s.err := rfl
@[simp] theorem setBlk_errcode (b : Block) : (s.setBlk b).errcode = s.errcode := rfl
@[simp] theorem setBlk_errinfo (b : Block) : (s.setBlk b).errinfo = s.errinfo := rfl
@[simp] theorem setBlk_die (b : Block) : (s.setBlk b).die = s.die := rfl
@[simp] theorem setBlk_eie (b : Block) : (s.setBlk b).eie = s.eie := rfl
@[simp] theorem setBlk_seqOp (b : Block) : (s.setBlk b).seqOp = s.seqOp := rfl
@[simp] theorem setBlk_seqCnt (b : Block) : (s.setBlk b).seqCnt = s.seqCnt := rfl
@[simp] theorem setBlk_host (b : Block) : (s.setBlk b).host = s.host := rfl
@[simp] theorem setBlk_reads (b : Block) : (s.setBlk b).reads = s.reads := rfl
@[simp] theorem setBlk_draws (b : Block) : (s.setBlk b).draws = s.draws := rfl
@[simp] theorem setBlk_keyHi (b : Block) : (s.setBlk b).keyHi = s.keyHi := rfl
@[simp] theorem setBlk_blkHi (b : Block) : (s.setBlk b).blkHi = 16 := rfl
@[simp] theorem setBlk_wDef (b : Block) : (s.setBlk b).wDef = s.wDef := rfl

/-! ### setSchedule -/

@[simp] theorem setSchedule_key (x : Schedule) : (s.setSchedule x).key = s.key := rfl
@[simp] theorem setSchedule_keylen (x : Schedule) : (s.setSchedule x).keylen = s.keylen := rfl
@[simp] theorem setSchedule_blk (x : Schedule) : (s.setSchedule x).blk = s.blk := rfl
@[simp] theorem setSchedule_blklen (x : Schedule) : (s.setSchedule x).blklen = s.blklen := rfl
@[simp] theorem setSchedule_w (x : Schedule) : (s.setSchedule x).w = x := rfl
@[simp] theorem setSchedule_ksvalid (x : Schedule) : (s.setSchedule x).ksvalid = true := rfl
@[simp] theorem setSchedule_opa (x : Schedule) : (s.setSchedule x).opa = s.opa := rfl
@[simp] theorem setSchedule_opb (x : Schedule) : (s.setSchedule x).opb = s.opb := rfl
@[simp] theorem setSchedule_prod (x : Schedule) : (s.setSchedule x).prod = s.prod := rfl
@[simp] theorem setSchedule_busy (x : Schedule) : (s.setSchedule x).busy = s.busy := rfl
@[simp] theorem setSchedule_done (x : Schedule) : (s.setSchedule x).done = s.done := rfl
@[simp] theorem setSchedule_err (x : Schedule) : (s.setSchedule x).err = s.err := rfl
@[simp] theorem setSchedule_errcode (x : Schedule) : (s.setSchedule x).errcode = s.errcode := rfl
@[simp] theorem setSchedule_errinfo (x : Schedule) : (s.setSchedule x).errinfo = s.errinfo := rfl
@[simp] theorem setSchedule_die (x : Schedule) : (s.setSchedule x).die = s.die := rfl
@[simp] theorem setSchedule_eie (x : Schedule) : (s.setSchedule x).eie = s.eie := rfl
@[simp] theorem setSchedule_seqOp (x : Schedule) : (s.setSchedule x).seqOp = s.seqOp := rfl
@[simp] theorem setSchedule_seqCnt (x : Schedule) : (s.setSchedule x).seqCnt = s.seqCnt := rfl
@[simp] theorem setSchedule_host (x : Schedule) : (s.setSchedule x).host = s.host := rfl
@[simp] theorem setSchedule_reads (x : Schedule) : (s.setSchedule x).reads = s.reads := rfl
@[simp] theorem setSchedule_draws (x : Schedule) : (s.setSchedule x).draws = s.draws := rfl
@[simp] theorem setSchedule_keyHi (x : Schedule) : (s.setSchedule x).keyHi = s.keyHi := rfl
@[simp] theorem setSchedule_blkHi (x : Schedule) : (s.setSchedule x).blkHi = s.blkHi := rfl
@[simp] theorem setSchedule_wDef (x : Schedule) : (s.setSchedule x).wDef = true := rfl

/-! ### setProd -/

@[simp] theorem setProd_key (v : Byte) : (s.setProd v).key = s.key := rfl
@[simp] theorem setProd_keylen (v : Byte) : (s.setProd v).keylen = s.keylen := rfl
@[simp] theorem setProd_blk (v : Byte) : (s.setProd v).blk = s.blk := rfl
@[simp] theorem setProd_blklen (v : Byte) : (s.setProd v).blklen = s.blklen := rfl
@[simp] theorem setProd_w (v : Byte) : (s.setProd v).w = s.w := rfl
@[simp] theorem setProd_ksvalid (v : Byte) : (s.setProd v).ksvalid = s.ksvalid := rfl
@[simp] theorem setProd_opa (v : Byte) : (s.setProd v).opa = s.opa := rfl
@[simp] theorem setProd_opb (v : Byte) : (s.setProd v).opb = s.opb := rfl
@[simp] theorem setProd_prod (v : Byte) : (s.setProd v).prod = v := rfl
@[simp] theorem setProd_busy (v : Byte) : (s.setProd v).busy = s.busy := rfl
@[simp] theorem setProd_done (v : Byte) : (s.setProd v).done = s.done := rfl
@[simp] theorem setProd_err (v : Byte) : (s.setProd v).err = s.err := rfl
@[simp] theorem setProd_errcode (v : Byte) : (s.setProd v).errcode = s.errcode := rfl
@[simp] theorem setProd_errinfo (v : Byte) : (s.setProd v).errinfo = s.errinfo := rfl
@[simp] theorem setProd_die (v : Byte) : (s.setProd v).die = s.die := rfl
@[simp] theorem setProd_eie (v : Byte) : (s.setProd v).eie = s.eie := rfl
@[simp] theorem setProd_seqOp (v : Byte) : (s.setProd v).seqOp = s.seqOp := rfl
@[simp] theorem setProd_seqCnt (v : Byte) : (s.setProd v).seqCnt = s.seqCnt := rfl
@[simp] theorem setProd_host (v : Byte) : (s.setProd v).host = s.host := rfl
@[simp] theorem setProd_reads (v : Byte) : (s.setProd v).reads = s.reads := rfl
@[simp] theorem setProd_draws (v : Byte) : (s.setProd v).draws = s.draws := rfl
@[simp] theorem setProd_keyHi (v : Byte) : (s.setProd v).keyHi = s.keyHi := rfl
@[simp] theorem setProd_blkHi (v : Byte) : (s.setProd v).blkHi = s.blkHi := rfl
@[simp] theorem setProd_wDef (v : Byte) : (s.setProd v).wDef = s.wDef := rfl

/-! ### setOpa -/

@[simp] theorem setOpa_key (v : Byte) : (s.setOpa v).key = s.key := rfl
@[simp] theorem setOpa_keylen (v : Byte) : (s.setOpa v).keylen = s.keylen := rfl
@[simp] theorem setOpa_blk (v : Byte) : (s.setOpa v).blk = s.blk := rfl
@[simp] theorem setOpa_blklen (v : Byte) : (s.setOpa v).blklen = s.blklen := rfl
@[simp] theorem setOpa_w (v : Byte) : (s.setOpa v).w = s.w := rfl
@[simp] theorem setOpa_ksvalid (v : Byte) : (s.setOpa v).ksvalid = s.ksvalid := rfl
@[simp] theorem setOpa_opa (v : Byte) : (s.setOpa v).opa = v := rfl
@[simp] theorem setOpa_opb (v : Byte) : (s.setOpa v).opb = s.opb := rfl
@[simp] theorem setOpa_prod (v : Byte) : (s.setOpa v).prod = s.prod := rfl
@[simp] theorem setOpa_busy (v : Byte) : (s.setOpa v).busy = s.busy := rfl
@[simp] theorem setOpa_done (v : Byte) : (s.setOpa v).done = s.done := rfl
@[simp] theorem setOpa_err (v : Byte) : (s.setOpa v).err = s.err := rfl
@[simp] theorem setOpa_errcode (v : Byte) : (s.setOpa v).errcode = s.errcode := rfl
@[simp] theorem setOpa_errinfo (v : Byte) : (s.setOpa v).errinfo = s.errinfo := rfl
@[simp] theorem setOpa_die (v : Byte) : (s.setOpa v).die = s.die := rfl
@[simp] theorem setOpa_eie (v : Byte) : (s.setOpa v).eie = s.eie := rfl
@[simp] theorem setOpa_seqOp (v : Byte) : (s.setOpa v).seqOp = s.seqOp := rfl
@[simp] theorem setOpa_seqCnt (v : Byte) : (s.setOpa v).seqCnt = s.seqCnt := rfl
@[simp] theorem setOpa_host (v : Byte) : (s.setOpa v).host = s.host := rfl
@[simp] theorem setOpa_reads (v : Byte) : (s.setOpa v).reads = s.reads := rfl
@[simp] theorem setOpa_draws (v : Byte) : (s.setOpa v).draws = s.draws := rfl
@[simp] theorem setOpa_keyHi (v : Byte) : (s.setOpa v).keyHi = s.keyHi := rfl
@[simp] theorem setOpa_blkHi (v : Byte) : (s.setOpa v).blkHi = s.blkHi := rfl
@[simp] theorem setOpa_wDef (v : Byte) : (s.setOpa v).wDef = s.wDef := rfl

/-! ### setOpb -/

@[simp] theorem setOpb_key (v : Byte) : (s.setOpb v).key = s.key := rfl
@[simp] theorem setOpb_keylen (v : Byte) : (s.setOpb v).keylen = s.keylen := rfl
@[simp] theorem setOpb_blk (v : Byte) : (s.setOpb v).blk = s.blk := rfl
@[simp] theorem setOpb_blklen (v : Byte) : (s.setOpb v).blklen = s.blklen := rfl
@[simp] theorem setOpb_w (v : Byte) : (s.setOpb v).w = s.w := rfl
@[simp] theorem setOpb_ksvalid (v : Byte) : (s.setOpb v).ksvalid = s.ksvalid := rfl
@[simp] theorem setOpb_opa (v : Byte) : (s.setOpb v).opa = s.opa := rfl
@[simp] theorem setOpb_opb (v : Byte) : (s.setOpb v).opb = v := rfl
@[simp] theorem setOpb_prod (v : Byte) : (s.setOpb v).prod = s.prod := rfl
@[simp] theorem setOpb_busy (v : Byte) : (s.setOpb v).busy = s.busy := rfl
@[simp] theorem setOpb_done (v : Byte) : (s.setOpb v).done = s.done := rfl
@[simp] theorem setOpb_err (v : Byte) : (s.setOpb v).err = s.err := rfl
@[simp] theorem setOpb_errcode (v : Byte) : (s.setOpb v).errcode = s.errcode := rfl
@[simp] theorem setOpb_errinfo (v : Byte) : (s.setOpb v).errinfo = s.errinfo := rfl
@[simp] theorem setOpb_die (v : Byte) : (s.setOpb v).die = s.die := rfl
@[simp] theorem setOpb_eie (v : Byte) : (s.setOpb v).eie = s.eie := rfl
@[simp] theorem setOpb_seqOp (v : Byte) : (s.setOpb v).seqOp = s.seqOp := rfl
@[simp] theorem setOpb_seqCnt (v : Byte) : (s.setOpb v).seqCnt = s.seqCnt := rfl
@[simp] theorem setOpb_host (v : Byte) : (s.setOpb v).host = s.host := rfl
@[simp] theorem setOpb_reads (v : Byte) : (s.setOpb v).reads = s.reads := rfl
@[simp] theorem setOpb_draws (v : Byte) : (s.setOpb v).draws = s.draws := rfl
@[simp] theorem setOpb_keyHi (v : Byte) : (s.setOpb v).keyHi = s.keyHi := rfl
@[simp] theorem setOpb_blkHi (v : Byte) : (s.setOpb v).blkHi = s.blkHi := rfl
@[simp] theorem setOpb_wDef (v : Byte) : (s.setOpb v).wDef = s.wDef := rfl

/-! ### setCtrl -/

@[simp] theorem setCtrl_key (v : Byte) : (s.setCtrl v).key = s.key := rfl
@[simp] theorem setCtrl_keylen (v : Byte) : (s.setCtrl v).keylen = s.keylen := rfl
@[simp] theorem setCtrl_blk (v : Byte) : (s.setCtrl v).blk = s.blk := rfl
@[simp] theorem setCtrl_blklen (v : Byte) : (s.setCtrl v).blklen = s.blklen := rfl
@[simp] theorem setCtrl_w (v : Byte) : (s.setCtrl v).w = s.w := rfl
@[simp] theorem setCtrl_ksvalid (v : Byte) : (s.setCtrl v).ksvalid = s.ksvalid := rfl
@[simp] theorem setCtrl_opa (v : Byte) : (s.setCtrl v).opa = s.opa := rfl
@[simp] theorem setCtrl_opb (v : Byte) : (s.setCtrl v).opb = s.opb := rfl
@[simp] theorem setCtrl_prod (v : Byte) : (s.setCtrl v).prod = s.prod := rfl
@[simp] theorem setCtrl_busy (v : Byte) : (s.setCtrl v).busy = s.busy := rfl
@[simp] theorem setCtrl_done (v : Byte) : (s.setCtrl v).done = s.done := rfl
@[simp] theorem setCtrl_err (v : Byte) : (s.setCtrl v).err = s.err := rfl
@[simp] theorem setCtrl_errcode (v : Byte) : (s.setCtrl v).errcode = s.errcode := rfl
@[simp] theorem setCtrl_errinfo (v : Byte) : (s.setCtrl v).errinfo = s.errinfo := rfl
@[simp] theorem setCtrl_die (v : Byte) : (s.setCtrl v).die = v.getLsbD 0 := rfl
@[simp] theorem setCtrl_eie (v : Byte) : (s.setCtrl v).eie = v.getLsbD 1 := rfl
@[simp] theorem setCtrl_seqOp (v : Byte) : (s.setCtrl v).seqOp = s.seqOp := rfl
@[simp] theorem setCtrl_seqCnt (v : Byte) : (s.setCtrl v).seqCnt = s.seqCnt := rfl
@[simp] theorem setCtrl_host (v : Byte) : (s.setCtrl v).host = s.host := rfl
@[simp] theorem setCtrl_reads (v : Byte) : (s.setCtrl v).reads = s.reads := rfl
@[simp] theorem setCtrl_draws (v : Byte) : (s.setCtrl v).draws = s.draws := rfl
@[simp] theorem setCtrl_keyHi (v : Byte) : (s.setCtrl v).keyHi = s.keyHi := rfl
@[simp] theorem setCtrl_blkHi (v : Byte) : (s.setCtrl v).blkHi = s.blkHi := rfl
@[simp] theorem setCtrl_wDef (v : Byte) : (s.setCtrl v).wDef = s.wDef := rfl

/-! ### clearKeyLen -/

@[simp] theorem clearKeyLen_key : (s.clearKeyLen).key = s.key := rfl
@[simp] theorem clearKeyLen_keylen : (s.clearKeyLen).keylen = 0#5 := rfl
@[simp] theorem clearKeyLen_blk : (s.clearKeyLen).blk = s.blk := rfl
@[simp] theorem clearKeyLen_blklen : (s.clearKeyLen).blklen = s.blklen := rfl
@[simp] theorem clearKeyLen_w : (s.clearKeyLen).w = s.w := rfl
@[simp] theorem clearKeyLen_ksvalid : (s.clearKeyLen).ksvalid = false := rfl
@[simp] theorem clearKeyLen_opa : (s.clearKeyLen).opa = s.opa := rfl
@[simp] theorem clearKeyLen_opb : (s.clearKeyLen).opb = s.opb := rfl
@[simp] theorem clearKeyLen_prod : (s.clearKeyLen).prod = s.prod := rfl
@[simp] theorem clearKeyLen_busy : (s.clearKeyLen).busy = s.busy := rfl
@[simp] theorem clearKeyLen_done : (s.clearKeyLen).done = s.done := rfl
@[simp] theorem clearKeyLen_err : (s.clearKeyLen).err = s.err := rfl
@[simp] theorem clearKeyLen_errcode : (s.clearKeyLen).errcode = s.errcode := rfl
@[simp] theorem clearKeyLen_errinfo : (s.clearKeyLen).errinfo = s.errinfo := rfl
@[simp] theorem clearKeyLen_die : (s.clearKeyLen).die = s.die := rfl
@[simp] theorem clearKeyLen_eie : (s.clearKeyLen).eie = s.eie := rfl
@[simp] theorem clearKeyLen_seqOp : (s.clearKeyLen).seqOp = s.seqOp := rfl
@[simp] theorem clearKeyLen_seqCnt : (s.clearKeyLen).seqCnt = s.seqCnt := rfl
@[simp] theorem clearKeyLen_host : (s.clearKeyLen).host = s.host := rfl
@[simp] theorem clearKeyLen_reads : (s.clearKeyLen).reads = s.reads := rfl
@[simp] theorem clearKeyLen_draws : (s.clearKeyLen).draws = s.draws := rfl
@[simp] theorem clearKeyLen_keyHi : (s.clearKeyLen).keyHi = s.keyHi := rfl
@[simp] theorem clearKeyLen_blkHi : (s.clearKeyLen).blkHi = s.blkHi := rfl
@[simp] theorem clearKeyLen_wDef : (s.clearKeyLen).wDef = s.wDef := rfl

/-! ### clearBlkLen -/

@[simp] theorem clearBlkLen_key : (s.clearBlkLen).key = s.key := rfl
@[simp] theorem clearBlkLen_keylen : (s.clearBlkLen).keylen = s.keylen := rfl
@[simp] theorem clearBlkLen_blk : (s.clearBlkLen).blk = s.blk := rfl
@[simp] theorem clearBlkLen_blklen : (s.clearBlkLen).blklen = 0#5 := rfl
@[simp] theorem clearBlkLen_w : (s.clearBlkLen).w = s.w := rfl
@[simp] theorem clearBlkLen_ksvalid : (s.clearBlkLen).ksvalid = s.ksvalid := rfl
@[simp] theorem clearBlkLen_opa : (s.clearBlkLen).opa = s.opa := rfl
@[simp] theorem clearBlkLen_opb : (s.clearBlkLen).opb = s.opb := rfl
@[simp] theorem clearBlkLen_prod : (s.clearBlkLen).prod = s.prod := rfl
@[simp] theorem clearBlkLen_busy : (s.clearBlkLen).busy = s.busy := rfl
@[simp] theorem clearBlkLen_done : (s.clearBlkLen).done = s.done := rfl
@[simp] theorem clearBlkLen_err : (s.clearBlkLen).err = s.err := rfl
@[simp] theorem clearBlkLen_errcode : (s.clearBlkLen).errcode = s.errcode := rfl
@[simp] theorem clearBlkLen_errinfo : (s.clearBlkLen).errinfo = s.errinfo := rfl
@[simp] theorem clearBlkLen_die : (s.clearBlkLen).die = s.die := rfl
@[simp] theorem clearBlkLen_eie : (s.clearBlkLen).eie = s.eie := rfl
@[simp] theorem clearBlkLen_seqOp : (s.clearBlkLen).seqOp = s.seqOp := rfl
@[simp] theorem clearBlkLen_seqCnt : (s.clearBlkLen).seqCnt = s.seqCnt := rfl
@[simp] theorem clearBlkLen_host : (s.clearBlkLen).host = s.host := rfl
@[simp] theorem clearBlkLen_reads : (s.clearBlkLen).reads = s.reads := rfl
@[simp] theorem clearBlkLen_draws : (s.clearBlkLen).draws = s.draws := rfl
@[simp] theorem clearBlkLen_keyHi : (s.clearBlkLen).keyHi = s.keyHi := rfl
@[simp] theorem clearBlkLen_blkHi : (s.clearBlkLen).blkHi = s.blkHi := rfl
@[simp] theorem clearBlkLen_wDef : (s.clearBlkLen).wDef = s.wDef := rfl

/-! ### clearDone -/

@[simp] theorem clearDone_key : (s.clearDone).key = s.key := rfl
@[simp] theorem clearDone_keylen : (s.clearDone).keylen = s.keylen := rfl
@[simp] theorem clearDone_blk : (s.clearDone).blk = s.blk := rfl
@[simp] theorem clearDone_blklen : (s.clearDone).blklen = s.blklen := rfl
@[simp] theorem clearDone_w : (s.clearDone).w = s.w := rfl
@[simp] theorem clearDone_ksvalid : (s.clearDone).ksvalid = s.ksvalid := rfl
@[simp] theorem clearDone_opa : (s.clearDone).opa = s.opa := rfl
@[simp] theorem clearDone_opb : (s.clearDone).opb = s.opb := rfl
@[simp] theorem clearDone_prod : (s.clearDone).prod = s.prod := rfl
@[simp] theorem clearDone_busy : (s.clearDone).busy = s.busy := rfl
@[simp] theorem clearDone_done : (s.clearDone).done = false := rfl
@[simp] theorem clearDone_err : (s.clearDone).err = s.err := rfl
@[simp] theorem clearDone_errcode : (s.clearDone).errcode = s.errcode := rfl
@[simp] theorem clearDone_errinfo : (s.clearDone).errinfo = s.errinfo := rfl
@[simp] theorem clearDone_die : (s.clearDone).die = s.die := rfl
@[simp] theorem clearDone_eie : (s.clearDone).eie = s.eie := rfl
@[simp] theorem clearDone_seqOp : (s.clearDone).seqOp = s.seqOp := rfl
@[simp] theorem clearDone_seqCnt : (s.clearDone).seqCnt = s.seqCnt := rfl
@[simp] theorem clearDone_host : (s.clearDone).host = s.host := rfl
@[simp] theorem clearDone_reads : (s.clearDone).reads = s.reads := rfl
@[simp] theorem clearDone_draws : (s.clearDone).draws = s.draws := rfl
@[simp] theorem clearDone_keyHi : (s.clearDone).keyHi = s.keyHi := rfl
@[simp] theorem clearDone_blkHi : (s.clearDone).blkHi = s.blkHi := rfl
@[simp] theorem clearDone_wDef : (s.clearDone).wDef = s.wDef := rfl

/-! ### clearErr -/

@[simp] theorem clearErr_key : (s.clearErr).key = s.key := rfl
@[simp] theorem clearErr_keylen : (s.clearErr).keylen = s.keylen := rfl
@[simp] theorem clearErr_blk : (s.clearErr).blk = s.blk := rfl
@[simp] theorem clearErr_blklen : (s.clearErr).blklen = s.blklen := rfl
@[simp] theorem clearErr_w : (s.clearErr).w = s.w := rfl
@[simp] theorem clearErr_ksvalid : (s.clearErr).ksvalid = s.ksvalid := rfl
@[simp] theorem clearErr_opa : (s.clearErr).opa = s.opa := rfl
@[simp] theorem clearErr_opb : (s.clearErr).opb = s.opb := rfl
@[simp] theorem clearErr_prod : (s.clearErr).prod = s.prod := rfl
@[simp] theorem clearErr_busy : (s.clearErr).busy = s.busy := rfl
@[simp] theorem clearErr_done : (s.clearErr).done = s.done := rfl
@[simp] theorem clearErr_err : (s.clearErr).err = false := rfl
@[simp] theorem clearErr_errcode : (s.clearErr).errcode = 0x00#8 := rfl
@[simp] theorem clearErr_errinfo : (s.clearErr).errinfo = 0x00#8 := rfl
@[simp] theorem clearErr_die : (s.clearErr).die = s.die := rfl
@[simp] theorem clearErr_eie : (s.clearErr).eie = s.eie := rfl
@[simp] theorem clearErr_seqOp : (s.clearErr).seqOp = s.seqOp := rfl
@[simp] theorem clearErr_seqCnt : (s.clearErr).seqCnt = s.seqCnt := rfl
@[simp] theorem clearErr_host : (s.clearErr).host = s.host := rfl
@[simp] theorem clearErr_reads : (s.clearErr).reads = s.reads := rfl
@[simp] theorem clearErr_draws : (s.clearErr).draws = s.draws := rfl
@[simp] theorem clearErr_keyHi : (s.clearErr).keyHi = s.keyHi := rfl
@[simp] theorem clearErr_blkHi : (s.clearErr).blkHi = s.blkHi := rfl
@[simp] theorem clearErr_wDef : (s.clearErr).wDef = s.wDef := rfl

/-! ### recordErr -/

@[simp] theorem recordErr_key (c x : Byte) : (s.recordErr c x).key = s.key := rfl
@[simp] theorem recordErr_keylen (c x : Byte) : (s.recordErr c x).keylen = s.keylen := rfl
@[simp] theorem recordErr_blk (c x : Byte) : (s.recordErr c x).blk = s.blk := rfl
@[simp] theorem recordErr_blklen (c x : Byte) : (s.recordErr c x).blklen = s.blklen := rfl
@[simp] theorem recordErr_w (c x : Byte) : (s.recordErr c x).w = s.w := rfl
@[simp] theorem recordErr_ksvalid (c x : Byte) : (s.recordErr c x).ksvalid = s.ksvalid := rfl
@[simp] theorem recordErr_opa (c x : Byte) : (s.recordErr c x).opa = s.opa := rfl
@[simp] theorem recordErr_opb (c x : Byte) : (s.recordErr c x).opb = s.opb := rfl
@[simp] theorem recordErr_prod (c x : Byte) : (s.recordErr c x).prod = s.prod := rfl
@[simp] theorem recordErr_busy (c x : Byte) : (s.recordErr c x).busy = s.busy := rfl
@[simp] theorem recordErr_done (c x : Byte) : (s.recordErr c x).done = s.done := rfl
@[simp] theorem recordErr_err (c x : Byte) : (s.recordErr c x).err = true := rfl
@[simp] theorem recordErr_errcode (c x : Byte) : (s.recordErr c x).errcode = c := rfl
@[simp] theorem recordErr_errinfo (c x : Byte) : (s.recordErr c x).errinfo = x := rfl
@[simp] theorem recordErr_die (c x : Byte) : (s.recordErr c x).die = s.die := rfl
@[simp] theorem recordErr_eie (c x : Byte) : (s.recordErr c x).eie = s.eie := rfl
@[simp] theorem recordErr_seqOp (c x : Byte) : (s.recordErr c x).seqOp = s.seqOp := rfl
@[simp] theorem recordErr_seqCnt (c x : Byte) : (s.recordErr c x).seqCnt = s.seqCnt := rfl
@[simp] theorem recordErr_host (c x : Byte) : (s.recordErr c x).host = s.host := rfl
@[simp] theorem recordErr_reads (c x : Byte) : (s.recordErr c x).reads = s.reads := rfl
@[simp] theorem recordErr_draws (c x : Byte) : (s.recordErr c x).draws = s.draws := rfl
@[simp] theorem recordErr_keyHi (c x : Byte) : (s.recordErr c x).keyHi = s.keyHi := rfl
@[simp] theorem recordErr_blkHi (c x : Byte) : (s.recordErr c x).blkHi = s.blkHi := rfl
@[simp] theorem recordErr_wDef (c x : Byte) : (s.recordErr c x).wDef = s.wDef := rfl

/-! ### start -/

@[simp] theorem start_key (c : Byte) (n : Nat) : (s.start c n).key = s.key := rfl
@[simp] theorem start_keylen (c : Byte) (n : Nat) : (s.start c n).keylen = s.keylen := rfl
@[simp] theorem start_blk (c : Byte) (n : Nat) : (s.start c n).blk = s.blk := rfl
@[simp] theorem start_blklen (c : Byte) (n : Nat) : (s.start c n).blklen = s.blklen := rfl
@[simp] theorem start_w (c : Byte) (n : Nat) : (s.start c n).w = s.w := rfl
@[simp] theorem start_ksvalid (c : Byte) (n : Nat) : (s.start c n).ksvalid = s.ksvalid := rfl
@[simp] theorem start_opa (c : Byte) (n : Nat) : (s.start c n).opa = s.opa := rfl
@[simp] theorem start_opb (c : Byte) (n : Nat) : (s.start c n).opb = s.opb := rfl
@[simp] theorem start_prod (c : Byte) (n : Nat) : (s.start c n).prod = s.prod := rfl
@[simp] theorem start_busy (c : Byte) (n : Nat) : (s.start c n).busy = true := rfl
@[simp] theorem start_done (c : Byte) (n : Nat) : (s.start c n).done = false := rfl
@[simp] theorem start_err (c : Byte) (n : Nat) : (s.start c n).err = s.err := rfl
@[simp] theorem start_errcode (c : Byte) (n : Nat) : (s.start c n).errcode = s.errcode := rfl
@[simp] theorem start_errinfo (c : Byte) (n : Nat) : (s.start c n).errinfo = s.errinfo := rfl
@[simp] theorem start_die (c : Byte) (n : Nat) : (s.start c n).die = s.die := rfl
@[simp] theorem start_eie (c : Byte) (n : Nat) : (s.start c n).eie = s.eie := rfl
@[simp] theorem start_seqOp (c : Byte) (n : Nat) : (s.start c n).seqOp = c := rfl
@[simp] theorem start_seqCnt (c : Byte) (n : Nat) : (s.start c n).seqCnt = n := rfl
@[simp] theorem start_host (c : Byte) (n : Nat) : (s.start c n).host = s.host := rfl
@[simp] theorem start_reads (c : Byte) (n : Nat) : (s.start c n).reads = s.reads := rfl
@[simp] theorem start_draws (c : Byte) (n : Nat) : (s.start c n).draws = s.draws := rfl
@[simp] theorem start_keyHi (c : Byte) (n : Nat) : (s.start c n).keyHi = s.keyHi := rfl
@[simp] theorem start_blkHi (c : Byte) (n : Nat) : (s.start c n).blkHi = s.blkHi := rfl
@[simp] theorem start_wDef (c : Byte) (n : Nat) : (s.start c n).wDef = s.wDef := rfl

/-! ### finish -/

@[simp] theorem finish_key : (s.finish).key = s.key := rfl
@[simp] theorem finish_keylen : (s.finish).keylen = s.keylen := rfl
@[simp] theorem finish_blk : (s.finish).blk = s.blk := rfl
@[simp] theorem finish_blklen : (s.finish).blklen = s.blklen := rfl
@[simp] theorem finish_w : (s.finish).w = s.w := rfl
@[simp] theorem finish_ksvalid : (s.finish).ksvalid = s.ksvalid := rfl
@[simp] theorem finish_opa : (s.finish).opa = s.opa := rfl
@[simp] theorem finish_opb : (s.finish).opb = s.opb := rfl
@[simp] theorem finish_prod : (s.finish).prod = s.prod := rfl
@[simp] theorem finish_busy : (s.finish).busy = false := rfl
@[simp] theorem finish_done : (s.finish).done = true := rfl
@[simp] theorem finish_err : (s.finish).err = s.err := rfl
@[simp] theorem finish_errcode : (s.finish).errcode = s.errcode := rfl
@[simp] theorem finish_errinfo : (s.finish).errinfo = s.errinfo := rfl
@[simp] theorem finish_die : (s.finish).die = s.die := rfl
@[simp] theorem finish_eie : (s.finish).eie = s.eie := rfl
@[simp] theorem finish_seqOp : (s.finish).seqOp = s.seqOp := rfl
@[simp] theorem finish_seqCnt : (s.finish).seqCnt = s.seqCnt := rfl
@[simp] theorem finish_host : (s.finish).host = s.host := rfl
@[simp] theorem finish_reads : (s.finish).reads = s.reads := rfl
@[simp] theorem finish_draws : (s.finish).draws = s.draws := rfl
@[simp] theorem finish_keyHi : (s.finish).keyHi = s.keyHi := rfl
@[simp] theorem finish_blkHi : (s.finish).blkHi = s.blkHi := rfl
@[simp] theorem finish_wDef : (s.finish).wDef = s.wDef := rfl

/-! ### countDown -/

@[simp] theorem countDown_key : (s.countDown).key = s.key := rfl
@[simp] theorem countDown_keylen : (s.countDown).keylen = s.keylen := rfl
@[simp] theorem countDown_blk : (s.countDown).blk = s.blk := rfl
@[simp] theorem countDown_blklen : (s.countDown).blklen = s.blklen := rfl
@[simp] theorem countDown_w : (s.countDown).w = s.w := rfl
@[simp] theorem countDown_ksvalid : (s.countDown).ksvalid = s.ksvalid := rfl
@[simp] theorem countDown_opa : (s.countDown).opa = s.opa := rfl
@[simp] theorem countDown_opb : (s.countDown).opb = s.opb := rfl
@[simp] theorem countDown_prod : (s.countDown).prod = s.prod := rfl
@[simp] theorem countDown_busy : (s.countDown).busy = s.busy := rfl
@[simp] theorem countDown_done : (s.countDown).done = s.done := rfl
@[simp] theorem countDown_err : (s.countDown).err = s.err := rfl
@[simp] theorem countDown_errcode : (s.countDown).errcode = s.errcode := rfl
@[simp] theorem countDown_errinfo : (s.countDown).errinfo = s.errinfo := rfl
@[simp] theorem countDown_die : (s.countDown).die = s.die := rfl
@[simp] theorem countDown_eie : (s.countDown).eie = s.eie := rfl
@[simp] theorem countDown_seqOp : (s.countDown).seqOp = s.seqOp := rfl
@[simp] theorem countDown_seqCnt : (s.countDown).seqCnt = s.seqCnt - 1 := rfl
@[simp] theorem countDown_host : (s.countDown).host = s.host := rfl
@[simp] theorem countDown_reads : (s.countDown).reads = s.reads := rfl
@[simp] theorem countDown_draws : (s.countDown).draws = s.draws := rfl
@[simp] theorem countDown_keyHi : (s.countDown).keyHi = s.keyHi := rfl
@[simp] theorem countDown_blkHi : (s.countDown).blkHi = s.blkHi := rfl
@[simp] theorem countDown_wDef : (s.countDown).wDef = s.wDef := rfl

/-! ### drew -/

@[simp] theorem drew_key : (s.drew).key = s.key := rfl
@[simp] theorem drew_keylen : (s.drew).keylen = s.keylen := rfl
@[simp] theorem drew_blk : (s.drew).blk = s.blk := rfl
@[simp] theorem drew_blklen : (s.drew).blklen = s.blklen := rfl
@[simp] theorem drew_w : (s.drew).w = s.w := rfl
@[simp] theorem drew_ksvalid : (s.drew).ksvalid = s.ksvalid := rfl
@[simp] theorem drew_opa : (s.drew).opa = s.opa := rfl
@[simp] theorem drew_opb : (s.drew).opb = s.opb := rfl
@[simp] theorem drew_prod : (s.drew).prod = s.prod := rfl
@[simp] theorem drew_busy : (s.drew).busy = s.busy := rfl
@[simp] theorem drew_done : (s.drew).done = s.done := rfl
@[simp] theorem drew_err : (s.drew).err = s.err := rfl
@[simp] theorem drew_errcode : (s.drew).errcode = s.errcode := rfl
@[simp] theorem drew_errinfo : (s.drew).errinfo = s.errinfo := rfl
@[simp] theorem drew_die : (s.drew).die = s.die := rfl
@[simp] theorem drew_eie : (s.drew).eie = s.eie := rfl
@[simp] theorem drew_seqOp : (s.drew).seqOp = s.seqOp := rfl
@[simp] theorem drew_seqCnt : (s.drew).seqCnt = s.seqCnt := rfl
@[simp] theorem drew_host : (s.drew).host = s.host := rfl
@[simp] theorem drew_reads : (s.drew).reads = s.reads := rfl
@[simp] theorem drew_draws : (s.drew).draws = s.draws + 1 := rfl
@[simp] theorem drew_keyHi : (s.drew).keyHi = s.keyHi := rfl
@[simp] theorem drew_blkHi : (s.drew).blkHi = s.blkHi := rfl
@[simp] theorem drew_wDef : (s.drew).wDef = s.wDef := rfl

/-! ### popHost -/

@[simp] theorem popHost_key : (s.popHost).key = s.key := rfl
@[simp] theorem popHost_keylen : (s.popHost).keylen = s.keylen := rfl
@[simp] theorem popHost_blk : (s.popHost).blk = s.blk := rfl
@[simp] theorem popHost_blklen : (s.popHost).blklen = s.blklen := rfl
@[simp] theorem popHost_w : (s.popHost).w = s.w := rfl
@[simp] theorem popHost_ksvalid : (s.popHost).ksvalid = s.ksvalid := rfl
@[simp] theorem popHost_opa : (s.popHost).opa = s.opa := rfl
@[simp] theorem popHost_opb : (s.popHost).opb = s.opb := rfl
@[simp] theorem popHost_prod : (s.popHost).prod = s.prod := rfl
@[simp] theorem popHost_busy : (s.popHost).busy = s.busy := rfl
@[simp] theorem popHost_done : (s.popHost).done = s.done := rfl
@[simp] theorem popHost_err : (s.popHost).err = s.err := rfl
@[simp] theorem popHost_errcode : (s.popHost).errcode = s.errcode := rfl
@[simp] theorem popHost_errinfo : (s.popHost).errinfo = s.errinfo := rfl
@[simp] theorem popHost_die : (s.popHost).die = s.die := rfl
@[simp] theorem popHost_eie : (s.popHost).eie = s.eie := rfl
@[simp] theorem popHost_seqOp : (s.popHost).seqOp = s.seqOp := rfl
@[simp] theorem popHost_seqCnt : (s.popHost).seqCnt = s.seqCnt := rfl
@[simp] theorem popHost_host : (s.popHost).host = s.host.tail := rfl
@[simp] theorem popHost_reads : (s.popHost).reads = s.reads := rfl
@[simp] theorem popHost_draws : (s.popHost).draws = s.draws := rfl
@[simp] theorem popHost_keyHi : (s.popHost).keyHi = s.keyHi := rfl
@[simp] theorem popHost_blkHi : (s.popHost).blkHi = s.blkHi := rfl
@[simp] theorem popHost_wDef : (s.popHost).wDef = s.wDef := rfl

/-! ### logRead -/

@[simp] theorem logRead_key (v : Byte) : (s.logRead v).key = s.key := rfl
@[simp] theorem logRead_keylen (v : Byte) : (s.logRead v).keylen = s.keylen := rfl
@[simp] theorem logRead_blk (v : Byte) : (s.logRead v).blk = s.blk := rfl
@[simp] theorem logRead_blklen (v : Byte) : (s.logRead v).blklen = s.blklen := rfl
@[simp] theorem logRead_w (v : Byte) : (s.logRead v).w = s.w := rfl
@[simp] theorem logRead_ksvalid (v : Byte) : (s.logRead v).ksvalid = s.ksvalid := rfl
@[simp] theorem logRead_opa (v : Byte) : (s.logRead v).opa = s.opa := rfl
@[simp] theorem logRead_opb (v : Byte) : (s.logRead v).opb = s.opb := rfl
@[simp] theorem logRead_prod (v : Byte) : (s.logRead v).prod = s.prod := rfl
@[simp] theorem logRead_busy (v : Byte) : (s.logRead v).busy = s.busy := rfl
@[simp] theorem logRead_done (v : Byte) : (s.logRead v).done = s.done := rfl
@[simp] theorem logRead_err (v : Byte) : (s.logRead v).err = s.err := rfl
@[simp] theorem logRead_errcode (v : Byte) : (s.logRead v).errcode = s.errcode := rfl
@[simp] theorem logRead_errinfo (v : Byte) : (s.logRead v).errinfo = s.errinfo := rfl
@[simp] theorem logRead_die (v : Byte) : (s.logRead v).die = s.die := rfl
@[simp] theorem logRead_eie (v : Byte) : (s.logRead v).eie = s.eie := rfl
@[simp] theorem logRead_seqOp (v : Byte) : (s.logRead v).seqOp = s.seqOp := rfl
@[simp] theorem logRead_seqCnt (v : Byte) : (s.logRead v).seqCnt = s.seqCnt := rfl
@[simp] theorem logRead_host (v : Byte) : (s.logRead v).host = s.host := rfl
@[simp] theorem logRead_reads (v : Byte) : (s.logRead v).reads = v :: s.reads := rfl
@[simp] theorem logRead_draws (v : Byte) : (s.logRead v).draws = s.draws := rfl
@[simp] theorem logRead_keyHi (v : Byte) : (s.logRead v).keyHi = s.keyHi := rfl
@[simp] theorem logRead_blkHi (v : Byte) : (s.logRead v).blkHi = s.blkHi := rfl
@[simp] theorem logRead_wDef (v : Byte) : (s.logRead v).wDef = s.wDef := rfl

/-! ### pushKey -/

@[simp] theorem pushKey_key (v : Byte) : (s.pushKey v).key = storeByte s.key s.keylen v := rfl
@[simp] theorem pushKey_keylen (v : Byte) : (s.pushKey v).keylen = incLen s.keylen := rfl
@[simp] theorem pushKey_blk (v : Byte) : (s.pushKey v).blk = s.blk := rfl
@[simp] theorem pushKey_blklen (v : Byte) : (s.pushKey v).blklen = s.blklen := rfl
@[simp] theorem pushKey_w (v : Byte) : (s.pushKey v).w = s.w := rfl
@[simp] theorem pushKey_ksvalid (v : Byte) : (s.pushKey v).ksvalid = false := rfl
@[simp] theorem pushKey_opa (v : Byte) : (s.pushKey v).opa = s.opa := rfl
@[simp] theorem pushKey_opb (v : Byte) : (s.pushKey v).opb = s.opb := rfl
@[simp] theorem pushKey_prod (v : Byte) : (s.pushKey v).prod = s.prod := rfl
@[simp] theorem pushKey_busy (v : Byte) : (s.pushKey v).busy = s.busy := rfl
@[simp] theorem pushKey_done (v : Byte) : (s.pushKey v).done = s.done := rfl
@[simp] theorem pushKey_err (v : Byte) : (s.pushKey v).err = s.err := rfl
@[simp] theorem pushKey_errcode (v : Byte) : (s.pushKey v).errcode = s.errcode := rfl
@[simp] theorem pushKey_errinfo (v : Byte) : (s.pushKey v).errinfo = s.errinfo := rfl
@[simp] theorem pushKey_die (v : Byte) : (s.pushKey v).die = s.die := rfl
@[simp] theorem pushKey_eie (v : Byte) : (s.pushKey v).eie = s.eie := rfl
@[simp] theorem pushKey_seqOp (v : Byte) : (s.pushKey v).seqOp = s.seqOp := rfl
@[simp] theorem pushKey_seqCnt (v : Byte) : (s.pushKey v).seqCnt = s.seqCnt := rfl
@[simp] theorem pushKey_host (v : Byte) : (s.pushKey v).host = s.host := rfl
@[simp] theorem pushKey_reads (v : Byte) : (s.pushKey v).reads = s.reads := rfl
@[simp] theorem pushKey_draws (v : Byte) : (s.pushKey v).draws = s.draws := rfl
@[simp] theorem pushKey_keyHi (v : Byte) : (s.pushKey v).keyHi = raiseMark s.keyHi s.keylen := rfl
@[simp] theorem pushKey_blkHi (v : Byte) : (s.pushKey v).blkHi = s.blkHi := rfl
@[simp] theorem pushKey_wDef (v : Byte) : (s.pushKey v).wDef = s.wDef := rfl

/-! ### pushBlk -/

@[simp] theorem pushBlk_key (v : Byte) : (s.pushBlk v).key = s.key := rfl
@[simp] theorem pushBlk_keylen (v : Byte) : (s.pushBlk v).keylen = s.keylen := rfl
@[simp] theorem pushBlk_blk (v : Byte) : (s.pushBlk v).blk = storeByte s.blk s.blklen v := rfl
@[simp] theorem pushBlk_blklen (v : Byte) : (s.pushBlk v).blklen = incLen s.blklen := rfl
@[simp] theorem pushBlk_w (v : Byte) : (s.pushBlk v).w = s.w := rfl
@[simp] theorem pushBlk_ksvalid (v : Byte) : (s.pushBlk v).ksvalid = s.ksvalid := rfl
@[simp] theorem pushBlk_opa (v : Byte) : (s.pushBlk v).opa = s.opa := rfl
@[simp] theorem pushBlk_opb (v : Byte) : (s.pushBlk v).opb = s.opb := rfl
@[simp] theorem pushBlk_prod (v : Byte) : (s.pushBlk v).prod = s.prod := rfl
@[simp] theorem pushBlk_busy (v : Byte) : (s.pushBlk v).busy = s.busy := rfl
@[simp] theorem pushBlk_done (v : Byte) : (s.pushBlk v).done = s.done := rfl
@[simp] theorem pushBlk_err (v : Byte) : (s.pushBlk v).err = s.err := rfl
@[simp] theorem pushBlk_errcode (v : Byte) : (s.pushBlk v).errcode = s.errcode := rfl
@[simp] theorem pushBlk_errinfo (v : Byte) : (s.pushBlk v).errinfo = s.errinfo := rfl
@[simp] theorem pushBlk_die (v : Byte) : (s.pushBlk v).die = s.die := rfl
@[simp] theorem pushBlk_eie (v : Byte) : (s.pushBlk v).eie = s.eie := rfl
@[simp] theorem pushBlk_seqOp (v : Byte) : (s.pushBlk v).seqOp = s.seqOp := rfl
@[simp] theorem pushBlk_seqCnt (v : Byte) : (s.pushBlk v).seqCnt = s.seqCnt := rfl
@[simp] theorem pushBlk_host (v : Byte) : (s.pushBlk v).host = s.host := rfl
@[simp] theorem pushBlk_reads (v : Byte) : (s.pushBlk v).reads = s.reads := rfl
@[simp] theorem pushBlk_draws (v : Byte) : (s.pushBlk v).draws = s.draws := rfl
@[simp] theorem pushBlk_keyHi (v : Byte) : (s.pushBlk v).keyHi = s.keyHi := rfl
@[simp] theorem pushBlk_blkHi (v : Byte) : (s.pushBlk v).blkHi = raiseMark s.blkHi s.blklen := rfl
@[simp] theorem pushBlk_wDef (v : Byte) : (s.pushBlk v).wDef = s.wDef := rfl

end Sys2Proof.Machine.State
end

