-- ==== Sys2Proof/Laws/Functions.lean ====
section
/-! SUPPORT. What each pure function gives at each index (R130 to R146), and what the expansion step leaves (R134, R135).
Later proofs cite these and do not unfold the functions. -/

namespace Sys2Proof.Machine

@[simp] theorem subBytes_getElem (b : Block) (n : Nat) (h : n < 16) : (subBytes b)[n] = sbox b[n] := by
  simp [subBytes]

@[simp] theorem invSubBytes_getElem (b : Block) (n : Nat) (h : n < 16) : (invSubBytes b)[n] = invSbox b[n] := by
  simp [invSubBytes]

@[simp] theorem shiftRows_getElem (b : Block) (n : Nat) (h : n < 16) :
    (shiftRows b)[n] = b[n % 4 + 4 * ((n / 4 + n % 4) % 4)] := by
  simp [shiftRows]

@[simp] theorem invShiftRows_getElem (b : Block) (n : Nat) (h : n < 16) :
    (invShiftRows b)[n] = b[n % 4 + 4 * ((n / 4 + 4 - n % 4) % 4)] := by
  simp [invShiftRows]

@[simp] theorem roundKey_getElem (w : Schedule) (r : Fin 11) (n : Nat) (h : n < 16) :
    (roundKey w r)[n] = w[16 * r.val + n] := by
  simp [roundKey]

@[simp] theorem addRoundKey_getElem (b : Block) (w : Schedule) (r : Fin 11) (n : Nat) (h : n < 16) :
    (addRoundKey b w r)[n] = b[n] ^^^ w[16 * r.val + n] := by
  simp [addRoundKey]

@[simp] theorem column_getElem (b : Block) (c : Fin 4) (j : Nat) (h : j < 4) : (column b c)[j] = b[4 * c.val + j] := by
  simp [column]

theorem ofColumns_getElem (f : Fin 4 → Word) (n : Nat) (h : n < 16) :
    (ofColumns f)[n] = (f ⟨n / 4, by omega⟩)[n % 4] := by
  simp [ofColumns]

/-- Column `c` of a block made from columns is the `c`-th of them. -/
@[simp] theorem column_ofColumns (f : Fin 4 → Word) (c : Fin 4) : column (ofColumns f) c = f c := by
  refine Vector.ext fun j hj => ?_
  have hc := c.isLt
  rw [column_getElem, ofColumns_getElem]
  have h1 : (⟨(4 * c.val + j) / 4, by omega⟩ : Fin 4) = c := Fin.ext (by simp; omega)
  have h2 : (4 * c.val + j) % 4 = j := by omega
  simp only [h1, h2]

@[simp] theorem mulColumn_getElem (row : Fin 4 → Word) (col : Word) (i : Nat) (h : i < 4) :
    (mulColumn row col)[i] = scalarProduct (row ⟨i, h⟩) col := by
  simp [mulColumn]

@[simp] theorem column_mixColumns (b : Block) (c : Fin 4) :
    column (mixColumns b) c = mulColumn mixRow (column b c) := by simp [mixColumns]

@[simp] theorem column_invMixColumns (b : Block) (c : Fin 4) :
    column (invMixColumns b) c = mulColumn invMixRow (column b c) := by simp [invMixColumns]

/-- A block is determined by its columns. -/
theorem block_ext_columns {a b : Block} (h : ∀ c, column a c = column b c) : a = b := by
  refine Vector.ext fun n hn => ?_
  have := congrArg (fun w : Word => w[n % 4]) (h ⟨n / 4, by omega⟩)
  simp only [column_getElem] at this
  have e : 4 * (n / 4) + n % 4 = n := by omega
  simpa [e] using this

@[simp] theorem xorWord_getElem (a b : Word) (j : Nat) (h : j < 4) : (xorWord a b)[j] = a[j] ^^^ b[j] := by
  simp [xorWord]

/-- After `n` generated words there are `n + 4`, the newest first (R133). -/
theorem scheduleWords_length (key : Block) (n : Nat) : (scheduleWords key n).length = n + 4 := by
  induction n with
  | zero => rfl
  | succ n ih =>
    unfold scheduleWords
    split
    · rename_i heq; rw [heq] at ih; simp at ih ⊢; omega
    · rename_i hno
      match h : scheduleWords key n with
      | a :: b :: c :: d :: l => exact absurd h (hno a b c d l)
      | [] | [_] | [_, _] | [_, _, _] => simp [h] at ih

theorem expandKey_getElem (key : Block) (n : Nat) (h : n < 176) :
    (expandKey key)[n] = ((scheduleWords key 40).reverse.getD (n / 4) (Vector.replicate 4 0#8))[n % 4] := by
  simp [expandKey]

/-! ### The expansion step -/

@[simp] theorem ensureSchedule_key (s : State) : (ensureSchedule s).key = s.key := by
  cases h : s.ksvalid <;> simp [ensureSchedule, expand, h]

@[simp] theorem ensureSchedule_blk (s : State) : (ensureSchedule s).blk = s.blk := by
  cases h : s.ksvalid <;> simp [ensureSchedule, expand, h]

@[simp] theorem ensureSchedule_ksvalid (s : State) : (ensureSchedule s).ksvalid = true := by
  cases h : s.ksvalid <;> simp [ensureSchedule, expand, h]

theorem ensureSchedule_of_valid (s : State) (h : s.ksvalid = true) : ensureSchedule s = s := by
  simp [ensureSchedule, h]

theorem ensureSchedule_of_invalid (s : State) (h : s.ksvalid = false) :
    ensureSchedule s = { s with w := expandKey s.key, ksvalid := true, wDef := true } := by
  simp [ensureSchedule, h, expand, State.setSchedule]

/-- The automatic expansion touches `W`, `KSVALID` and the mark of `W` only (R135). -/
theorem ensureSchedule_eq (s : State) :
    ensureSchedule s = { s with w := if s.ksvalid then s.w else expandKey s.key, ksvalid := true,
                                wDef := if s.ksvalid then s.wDef else true } := by
  cases h : s.ksvalid
  · rw [ensureSchedule_of_invalid s h]; simp
  · rw [ensureSchedule_of_valid s h]; simp [← h]

end Sys2Proof.Machine
end

