-- ==== Sys2Proof/Laws/Ops.lean ====
section
/-! SUPPORT. For each shared operation of Machine/Ops.lean, what it can do, said once. -/

namespace Sys2Proof.Machine

variable (s : State)

/-! ### Errors -/

/-- The error entry touches the three error registers only, and only when no error is recorded (R200). -/
theorem raiseError_eq (c : Cause) (x : Byte) :
    raiseError c x s = { s with err := true,
                                errcode := if s.err then s.errcode else causeCode c,
                                errinfo := if s.err then s.errinfo else x } := by
  unfold raiseError State.recordErr
  split <;> cases s <;> simp_all

theorem raiseError_of_err (c : Cause) (x : Byte) (h : s.err = true) : raiseError c x s = s := by
  simp [raiseError, h]

theorem raiseError_of_noErr (c : Cause) (x : Byte) (h : s.err = false) :
    raiseError c x s = { s with err := true, errcode := causeCode c, errinfo := x } := by
  simp [raiseError, h, State.recordErr]

/-- The acknowledgement clears `DONE` by bit 1 and the error registers by bit 2 (R203). -/
theorem acknowledge_eq (v : Byte) :
    acknowledge v s = { s with done := s.done && !v.getLsbD 1,
                               err := s.err && !v.getLsbD 2,
                               errcode := if v.getLsbD 2 then 0x00#8 else s.errcode,
                               errinfo := if v.getLsbD 2 then 0x00#8 else s.errinfo } := by
  unfold acknowledge State.clearDone State.clearErr
  cases h1 : v.getLsbD 1 <;> cases h2 : v.getLsbD 2 <;> cases s <;> simp_all

theorem unlessBusy_of_busy (a : Addr) (f : State → State) (h : s.busy = true) :
    unlessBusy a f s = raiseError .busy (busyInfo a) s := by simp [unlessBusy, h]

theorem unlessBusy_of_idle (a : Addr) (f : State → State) (h : s.busy = false) :
    unlessBusy a f s = f s := by simp [unlessBusy, h]

/-! ### Issue, busy cycle, completion -/

theorem latency_pos (c : Byte) : 1 ≤ latency c s := by simp [latency]

theorem accept_eq (c : Byte) :
    accept c s = { s with busy := true, done := false, seqOp := c, seqCnt := latency c s, draws := s.draws + 1 } := rfl

/-- With the lengths it needs right, a command is accepted (R180). -/
theorem issue_of_ready (i : Instr) (hk : keyBad i s = false) (hb : blkBad i s = false) :
    issue i s = accept (encode i) s := by simp [issue, hk, hb]

/-- With a length it needs wrong, a command is refused with ERR_LENGTH (R191). -/
theorem issue_of_bad (i : Instr) (h : keyBad i s = true ∨ blkBad i s = true) :
    issue i s = raiseError .length (lengthInfo (opField (encode i)) (blkBad i s) (keyBad i s)) s := by
  rcases h with h | h <;> simp [issue, h]

/-- The last busy cycle performs the completion part (R181). -/
theorem busyCycle_last (f : State → State) (h : s.seqCnt ≤ 1) : busyCycle f s = (f s).finish := by
  simp [busyCycle, Nat.not_lt.mpr h]

/-- Every other busy cycle only counts down (R181). -/
theorem busyCycle_more (f : State → State) (h : 1 < s.seqCnt) :
    busyCycle f s = { s with seqCnt := s.seqCnt - 1 } := by
  simp [busyCycle, h, State.countDown]

theorem busyCommand_of_busy (i : Instr) (f : State → State) (h : s.busy = true) :
    busyCommand i f s = busyCycle f s := by simp [busyCommand, h]

theorem busyCommand_of_idle (i : Instr) (f : State → State) (h : s.busy = false) :
    busyCommand i f s = issue i s := by simp [busyCommand, h]

/-- Everything a busy command can do at an edge: count down, complete, be refused, be accepted (R180, R181). -/
theorem busyCommand_cases (i : Instr) (f : State → State) :
    (s.busy = true ∧ 1 < s.seqCnt ∧ busyCommand i f s = { s with seqCnt := s.seqCnt - 1 }) ∨
    (s.busy = true ∧ s.seqCnt ≤ 1 ∧ busyCommand i f s = (f s).finish) ∨
    (s.busy = false ∧ (keyBad i s = true ∨ blkBad i s = true) ∧
      busyCommand i f s = raiseError .length (lengthInfo (opField (encode i)) (blkBad i s) (keyBad i s)) s) ∨
    (s.busy = false ∧ keyBad i s = false ∧ blkBad i s = false ∧ busyCommand i f s = accept (encode i) s) := by
  rcases Bool.eq_false_or_eq_true s.busy with hb | hb
  · rw [busyCommand_of_busy s i f hb]
    rcases Nat.lt_or_ge 1 s.seqCnt with h | h
    · exact .inl ⟨hb, h, busyCycle_more s f h⟩
    · exact .inr (.inl ⟨hb, h, busyCycle_last s f h⟩)
  · rw [busyCommand_of_idle s i f hb]
    by_cases h : keyBad i s = true ∨ blkBad i s = true
    · exact .inr (.inr (.inl ⟨hb, h, issue_of_bad s i h⟩))
    · simp only [not_or, Bool.not_eq_true] at h
      exact .inr (.inr (.inr ⟨hb, h.1, h.2, issue_of_ready s i h.1 h.2⟩))

/-! ### Stream ports -/

theorem incLen_toNat (l : Len) : (incLen l).toNat = min (l.toNat + 1) 31 := by
  simp only [incLen, BitVec.toNat_ofNat]; omega

/-- A streamed byte lands at the index the counter names, if there is one (R74, R75). -/
theorem storeByte_getElem (a : Block) (l : Len) (v : Byte) (n : Nat) (h : n < 16) :
    (storeByte a l v)[n] = if l.toNat = n then v else a[n] := by
  simp [storeByte, Vector.getElem_setIfInBounds]

/-! ### Reset -/

theorem resetEdge_eq :
    resetEdge s = { State.reset with host := s.host, reads := s.reads, draws := s.draws } := rfl

end Sys2Proof.Machine
end

