-- ==== Sys2Proof/Laws/Exec.lean ====
section
/-! SUPPORT. What `exec` does, said once per phase: the meaning of every busy command is `busyCommand` with its own "at
completion" part, and `exec` always answers a next state. Then the ports of the bus, and what one step can do. -/

namespace Sys2Proof.Machine

/-- The "at completion" part of each busy command (R123, R134, R136, R147 to R153, R162, R163). -/
def completionPart (i : Instr) (s : State) : State :=
  match i with
  | .nop | .clr _ _ => s
  | .enc => completeEnc s
  | .dec => completeDec s
  | .expand => expand s
  | .gfmul => s.setProd (gfMul s.opa s.opb)
  | .subb => s.setBlk (subBytes s.blk)
  | .isubb => s.setBlk (invSubBytes s.blk)
  | .shr => s.setBlk (shiftRows s.blk)
  | .ishr => s.setBlk (invShiftRows s.blk)
  | .mixc => s.setBlk (mixColumns s.blk)
  | .imixc => s.setBlk (invMixColumns s.blk)
  | .ark r => match roundIndex r with
    | some k => completeArk k s
    | none => s

theorem roundIndex_of_le {r : BitVec 4} (h : r.toNat ≤ 10) : roundIndex r = some ⟨r.toNat, by omega⟩ := by
  simp [roundIndex, Nat.lt_succ_of_le h]

/-- Every well-formed busy command is `busyCommand` with its completion part. -/
theorem exec_eq_busyCommand (i : Instr) (s : State) (hw : WellFormed i) (hb : isBusyCommand i = true) :
    exec i s = .next (busyCommand i (completionPart i) s) := by
  cases i <;> first | rfl | exact absurd hb Bool.false_ne_true | skip
  rename_i r
  obtain ⟨k, hk⟩ : ∃ k, roundIndex r = some k := ⟨_, roundIndex_of_le hw⟩
  have e : completionPart (.ark r) = completeArk k := by funext t; simp only [completionPart, hk]
  simp only [exec, execArk, hk, e]

/-- The machine never stops in a meaning: `exec` answers a next state for every command and state. -/
theorem exec_isNext (i : Instr) (s : State) : ∃ t, exec i s = .next t := by
  cases i <;> first | exact ⟨_, rfl⟩ | skip
  simp only [exec, execArk]
  split <;> exact ⟨_, rfl⟩

/-! ### Ports -/

@[simp] theorem locate_cmd : locate Port.cmd = .cmd := rfl
@[simp] theorem locate_status : locate Port.status = .status := rfl
@[simp] theorem locate_ctrl : locate Port.ctrl = .ctrl := rfl
@[simp] theorem locate_keyin : locate Port.keyin = .keyin := rfl
@[simp] theorem locate_blkin : locate Port.blkin = .blkin := rfl
@[simp] theorem locate_opa : locate Port.opa = .opa := rfl
@[simp] theorem locate_opb : locate Port.opb = .opb := rfl

/-- While busy a host write touches `DONE`, the error registers and the interrupt enables only (R65, R230). -/
theorem hostWrite_of_busy (p : Pins) (s : State) (h : s.busy = true) :
    ∃ d e c x di ei, hostWrite p s =
      { s with done := d, err := e, errcode := c, errinfo := x, die := di, eie := ei } := by
  have same : ∃ d e c x di ei, s = { s with done := d, err := e, errcode := c, errinfo := x, die := di, eie := ei } :=
    ⟨s.done, s.err, s.errcode, s.errinfo, s.die, s.eie, rfl⟩
  have refused : ∀ a f, ∃ d e c x di ei, unlessBusy a f s =
      { s with done := d, err := e, errcode := c, errinfo := x, die := di, eie := ei } := fun a f =>
    ⟨s.done, _, _, _, s.die, s.eie, by rw [unlessBusy_of_busy s a f h, raiseError_eq]⟩
  unfold hostWrite busWrite
  split
  · cases locate p.addr <;> simp only [writeLoc] <;> first
      | exact same
      | exact refused _ _
      | exact ⟨_, _, _, _, s.die, s.eie, acknowledge_eq s _⟩
      | exact ⟨s.done, s.err, s.errcode, s.errinfo, _, _, rfl⟩
  · exact same

/-- A read adds its value to the record and may count a draw; nothing of the core changes (R64). -/
theorem recordRead_eq (a : Addr) (s : State) :
    ∃ v d, recordRead a s = { s with reads := v :: s.reads, draws := d } := by
  unfold recordRead
  split
  · exact ⟨_, s.draws, rfl⟩
  · exact ⟨_, _, rfl⟩

/-- Sampling the pins uses up the oldest input and may record a read; nothing of the core changes. -/
theorem sample_eq (p : Pins) (s : State) :
    ∃ rs d, sample p s = { s with host := s.host.tail, reads := rs, draws := d } := by
  unfold sample
  split
  · obtain ⟨v, d, h⟩ := recordRead_eq p.addr s
    exact ⟨v :: s.reads, d, by rw [h]; rfl⟩
  · exact ⟨s.reads, s.draws, rfl⟩

/-! ### One step -/

theorem step_of_rst (s : State) (h : s.pins.rst = true) : step s = .next (resetEdge (sample s.pins s)) := by
  simp [step, cycle, h]

@[simp] theorem sample_busy (p : Pins) (s : State) : (sample p s).busy = s.busy := by
  obtain ⟨rs, d, h⟩ := sample_eq p s; rw [h]

/-- A busy core performs one busy cycle, after the host's write of the same cycle (R62, R181). -/
theorem step_of_busy (s : State) (hr : s.pins.rst = false) (hb : s.busy = true) :
    step s = sequencerPart (hostWrite s.pins (sample s.pins s)) := by
  simp [step, cycle, hr, activeEdge, hb]

/-- A write to `CMD` of an idle core issues the command (R180). -/
theorem step_of_command (s : State) (hr : s.pins.rst = false) (hb : s.busy = false) (hc : s.pins.writesCmd = true) :
    step s = command s.pins.wdata (sample s.pins s) := by
  simp [step, cycle, hr, activeEdge, hb, hc]

/-- Any other cycle of an idle core performs the host's write, if there is one (R65). -/
theorem step_of_idle (s : State) (hr : s.pins.rst = false) (hb : s.busy = false) (hc : s.pins.writesCmd = false) :
    step s = .next (hostWrite s.pins (sample s.pins s)) := by
  simp [step, cycle, hr, activeEdge, hb, hc]

end Sys2Proof.Machine
end

