-- ==== Sys2Proof/Laws/Cycle.lean ====
section
/-! SUPPORT. What one clock cycle can do, said once: the parts of a cycle and what each leaves alone, the cases of a step,
and runs. Later proofs cite these and unfold neither `step` nor `exec`. -/

namespace Sys2Proof.Machine

/-! ### Errors -/

/-- `raise` of R200, in the words of the statements (Safety.lean). -/
theorem raiseError_eq_recorded (c : Cause) (x : Byte) (s : State) :
    raiseError c x s = recorded (causeCode c) x s := raiseError_eq s c x

/-- The information byte of a length error, as one byte (R201). -/
theorem lengthInfo_opField (c : Byte) (blkbad keybad : Bool) :
    lengthInfo (opField c) blkbad keybad =
      (c &&& 0xF0#8) ||| (if blkbad then 0x02#8 else 0x00#8) ||| (if keybad then 0x01#8 else 0x00#8) := by
  revert c; cases blkbad <;> cases keybad <;> decide +kernel

/-- What the issue of a command with a wrong length records is one of the errors of R190. -/
theorem legalError_of_badLength (i : Instr) (s : State) (hw : WellFormed i) (h : keyBad i s = true ∨ blkBad i s = true) :
    LegalError (causeCode .length) (lengthInfo (opField (encode i)) (blkBad i s) (keyBad i s)) := by
  refine .inl ⟨rfl, i, hw, blkBad i s, keyBad i s, h.symm, fun hb => ?_, fun hk => ?_, lengthInfo_opField _ _ _⟩
  · simp [blkBad] at hb; exact hb.1
  · simp [keyBad] at hk; exact hk.1

/-! ### What sampling the pins and a host write leave alone -/

/-- A cycle with a host write uses up its input and records nothing. -/
theorem sample_write (a v) (s : State) : sample (Pins.write a v) s = { s with host := s.host.tail } := rfl

/-- A cycle with a read, in the words of the statements (Safety.lean). -/
theorem sample_of_read (s : State) (hs : s.pins.sel = true) (hw : s.pins.wr = false) : sample s.pins s = tookRead s := by
  have hr : s.pins.isRead = true := by simp [Pins.isRead, hs, hw]
  unfold sample tookRead recordRead rdata
  rw [if_pos hr, if_pos hr]
  cases busRead s s.pins.addr <;> simp [resolve] <;> rfl

/-- A cycle without an access only uses up its input. -/
theorem sample_of_noAccess (s : State) (hs : s.pins.sel = false) :
    sample s.pins s = { s with host := s.host.tail } := by
  simp [sample, Pins.isRead, hs, State.popHost]

/-- A cycle that is no write leaves the state to the rest of the cycle (R65). -/
theorem hostWrite_of_not_write (p : Pins) (s : State) (h : p.isWrite = false) : hostWrite p s = s := by
  simp [hostWrite, h]

/-- Sampling changes nothing of the core (R64). -/
theorem sample_keeps (p : Pins) (s : State) :
    (sample p s).busy = s.busy ∧ (sample p s).seqOp = s.seqOp ∧ (sample p s).seqCnt = s.seqCnt ∧ SameData s (sample p s) ∧
    (sample p s).host = s.host.tail ∧ (sample p s).err = s.err ∧ (sample p s).errcode = s.errcode ∧
    (sample p s).errinfo = s.errinfo ∧ (sample p s).done = s.done := by
  obtain ⟨rs, d, h⟩ := sample_eq p s
  rw [h]; exact ⟨rfl, rfl, rfl, ⟨rfl, rfl, rfl, rfl, rfl, rfl, rfl, rfl, rfl⟩, rfl, rfl, rfl, rfl, rfl⟩

/-- A host write to a busy core touches nothing the sequencer reads or writes but `DONE` (R62, R230). -/
theorem hostWrite_keeps (p : Pins) (s : State) (hb : s.busy = true) :
    (hostWrite p s).busy = true ∧ (hostWrite p s).seqOp = s.seqOp ∧ (hostWrite p s).seqCnt = s.seqCnt ∧
    SameData s (hostWrite p s) := by
  obtain ⟨d, e, c, x, di, ei, h⟩ := hostWrite_of_busy p s hb
  rw [h]; exact ⟨hb, rfl, rfl, rfl, rfl, rfl, rfl, rfl, rfl, rfl, rfl, rfl⟩

/-- The address of the `STATUS` port is the only one that names it. -/
theorem eq_status_of_locate (a : Addr) (h : locate a = .status) : a = Port.status := by
  revert a; decide +kernel

/-- The address of the `CMD` port is the only one that names it. -/
theorem eq_cmd_of_locate (a : Addr) (h : locate a = .cmd) : a = Port.cmd := by
  revert a; decide +kernel

/-- A write to one of the five ports of R193 is refused while busy. -/
theorem hostWrite_refused (a v) (s : State) (ha : RefusedPort a) (hb : s.busy = true) :
    hostWrite (Pins.write a v) s = recorded 0x03#8 (a.extractLsb' 0 8) s := by
  have E : ∃ f, hostWrite (Pins.write a v) s = unlessBusy a f s := by
    rcases ha with rfl | rfl | rfl | rfl | rfl
    · exact ⟨id, rfl⟩
    · exact ⟨fun t => t.pushKey v, rfl⟩
    · exact ⟨fun t => t.pushBlk v, rfl⟩
    · exact ⟨fun t => t.setOpa v, rfl⟩
    · exact ⟨fun t => t.setOpb v, rfl⟩
  obtain ⟨f, E⟩ := E
  rw [E, unlessBusy_of_busy _ _ _ hb, raiseError_eq_recorded]; rfl

/-- Everything a host write to an idle core can do, short of issuing a command (R65). -/
theorem hostWrite_idle_cases (p : Pins) (s : State) (hb : s.busy = false) :
    hostWrite p s = s ∨ hostWrite p s = acknowledge p.wdata s ∨ hostWrite p s = s.setCtrl p.wdata ∨
    hostWrite p s = s.pushKey p.wdata ∨ hostWrite p s = s.pushBlk p.wdata ∨ hostWrite p s = s.setOpa p.wdata ∨
    hostWrite p s = s.setOpb p.wdata := by
  unfold hostWrite busWrite
  split
  · cases locate p.addr <;> simp only [writeLoc, unlessBusy_of_idle _ _ _ hb, id, true_or, or_true]
  · exact .inl rfl

/-! ### The windows of the address map (R70) -/

theorem locate_key : ∀ i : Fin 16, locate (BitVec.ofNat 10 (0x010 + i.val)) = .key i := by decide

theorem locate_blk : ∀ i : Fin 16, locate (BitVec.ofNat 10 (0x020 + i.val)) = .blk i := by decide

theorem locate_rcon : ∀ i : Fin 10, locate (BitVec.ofNat 10 (0x030 + i.val)) = .rcon i := by decide

theorem locate_w : ∀ i : Fin 176, locate (BitVec.ofNat 10 (0x100 + i.val)) = .w i := by decide +kernel

theorem locate_sbox : ∀ i : Byte, locate (BitVec.ofNat 10 (0x200 + i.toNat)) = .sbox i := by decide +kernel

theorem locate_invSbox : ∀ i : Byte, locate (BitVec.ofNat 10 (0x300 + i.toNat)) = .invSbox i := by decide +kernel

/-! ### Commands -/

/-- The automatic expansion, in the words of the statements (Safety.lean). -/
theorem ensureSchedule_eq_expandedIfNeeded (s : State) : ensureSchedule s = expandedIfNeeded s := by
  rw [ensureSchedule_eq]; rfl

/-- What `exec` answers: NOP and CLR act at once, every other command is `busyCommand` (R180). -/
theorem exec_next_cases (i : Instr) (s t : State) (hw : WellFormed i) (h : exec i s = .next t) :
    (i = .nop ∧ t = unlessBusy Port.cmd id s) ∨
    (∃ b k, i = .clr b k ∧ t = unlessBusy Port.cmd (clearLengths b k) s) ∨
    (isBusyCommand i = true ∧ t = busyCommand i (completionPart i) s) := by
  cases hi : isBusyCommand i
  · cases i <;> first | exact absurd hi Bool.true_eq_false.mp | (simp [isBusyCommand] at hi; done) | skip
    · left; exact ⟨rfl, (Host.Outcome.next.inj h).symm⟩
    · right; left; exact ⟨_, _, rfl, (Host.Outcome.next.inj h).symm⟩
  · right; right
    rw [exec_eq_busyCommand i s hw hi] at h
    exact ⟨rfl, (Host.Outcome.next.inj h).symm⟩

/-- Everything a command can do on an idle core: nothing, clear, be refused, be accepted (R180). -/
theorem exec_idle_cases (i : Instr) (s t : State) (hw : WellFormed i) (hb : s.busy = false) (h : exec i s = .next t) :
    (i = .nop ∧ t = s) ∨ (∃ b k, i = .clr b k ∧ t = clearLengths b k s) ∨
    (isBusyCommand i = true ∧ (keyBad i s = true ∨ blkBad i s = true) ∧
      t = raiseError .length (lengthInfo (opField (encode i)) (blkBad i s) (keyBad i s)) s) ∨
    (isBusyCommand i = true ∧ keyBad i s = false ∧ blkBad i s = false ∧ t = accept (encode i) s) := by
  rcases exec_next_cases i s t hw h with ⟨rfl, rfl⟩ | ⟨b, k, rfl, rfl⟩ | ⟨hi, rfl⟩
  · exact .inl ⟨rfl, unlessBusy_of_idle _ _ _ hb⟩
  · exact .inr (.inl ⟨b, k, rfl, unlessBusy_of_idle _ _ _ hb⟩)
  · rcases busyCommand_cases s i (completionPart i) with
      ⟨h1, _, _⟩ | ⟨h1, _, _⟩ | ⟨_, h2, e⟩ | ⟨_, h2, h3, e⟩
    · rw [hb] at h1; cases h1
    · rw [hb] at h1; cases h1
    · exact .inr (.inr (.inl ⟨hi, h2, e⟩))
    · exact .inr (.inr (.inr ⟨hi, h2, h3, e⟩))

/-- The last busy cycle of a command (R181). -/
theorem exec_last (i : Instr) (s : State) (hw : WellFormed i) (hi : isBusyCommand i = true) (hb : s.busy = true)
    (hc : s.seqCnt = 1) : exec i s = .next (completionPart i s).finish := by
  rw [exec_eq_busyCommand i s hw hi, busyCommand_of_busy _ _ _ hb, busyCycle_last _ _ (by omega)]

/-- Everything a busy cycle can do (R181). -/
theorem busyCycle_cases (s t : State) (f : State → State) (h : t = busyCycle f s) :
    (1 < s.seqCnt ∧ t = { s with seqCnt := s.seqCnt - 1 }) ∨ (s.seqCnt ≤ 1 ∧ t = (f s).finish) := by
  subst h
  rcases Nat.lt_or_ge 1 s.seqCnt with h | h
  · exact .inl ⟨h, busyCycle_more _ _ h⟩
  · exact .inr ⟨h, busyCycle_last _ _ h⟩

/-- The completion part leaves the sequencer alone. -/
theorem completionPart_seq (i : Instr) (s : State) :
    (completionPart i s).seqOp = s.seqOp ∧ (completionPart i s).seqCnt = s.seqCnt := by
  cases i with
  | ark r =>
    simp only [completionPart]
    split <;> simp [completeArk, ensureSchedule_eq_expandedIfNeeded, expandedIfNeeded]
  | _ => simp [completionPart, completeEnc, completeDec, ensureSchedule_eq_expandedIfNeeded, expandedIfNeeded, expand]

/-! ### One step -/

/-- A cycle of an idle core with a host write that is not to `CMD`. -/
theorem step_of_write (s : State) (a : Addr) (v : Byte) (hb : s.busy = false) (hp : s.pins = Pins.write a v)
    (ha : locate a ≠ .cmd) :
    step s = .next (hostWrite (Pins.write a v) { s with host := s.host.tail }) := by
  have := step_of_idle s (by rw [hp]; rfl) hb (by rw [hp]; simp [Pins.writesCmd, Pins.write, ha])
  rw [this, hp, sample_write]

/-- The command in `SEQ.OP` runs (R38, R181). -/
theorem sequencerPart_of_running (s : State) (i : Instr) (hd : decode s.seqOp = .command i)
    (hi : isBusyCommand i = true) : sequencerPart s = exec i s := by
  simp [sequencerPart, runningCommand, hd, hi]

/-- One busy cycle of the running command (R62, R181). -/
theorem step_of_running (s : State) (i : Instr) (hr : s.pins.rst = false) (hb : s.busy = true)
    (hd : decode s.seqOp = .command i) (hw : WellFormed i) (hi : isBusyCommand i = true) :
    step s = .next (busyCycle (completionPart i) (hostWrite s.pins (sample s.pins s))) := by
  have h1 := sample_keeps s.pins s
  have h2 := hostWrite_keeps s.pins (sample s.pins s) (by rw [h1.1, hb])
  rw [step_of_busy s hr hb, sequencerPart_of_running _ i (by rw [h2.2.1, h1.2.1, hd]) hi,
    exec_eq_busyCommand _ _ hw hi, busyCommand_of_busy _ _ _ h2.1]

/-- The command the sequencer finds is the decoded byte of `SEQ.OP`. -/
theorem runningCommand_some (s : State) (i : Instr) (h : runningCommand s = some i) :
    decode s.seqOp = .command i ∧ isBusyCommand i = true := by
  unfold runningCommand at h
  split at h
  · split at h
    · cases h; exact ⟨‹_›, ‹_›⟩
    · cases h
  · cases h

/-- Everything one cycle can do (R62): reset, a busy cycle, a command, a reserved byte, any other access. -/
theorem step_next_cases {s t : State} (h : step s = .next t) :
    (s.pins.rst = true ∧ t = resetEdge (sample s.pins s)) ∨
    (s.pins.rst = false ∧ s.busy = true ∧ ∃ i, decode s.seqOp = .command i ∧ isBusyCommand i = true ∧
      exec i (hostWrite s.pins (sample s.pins s)) = .next t) ∨
    (s.pins.rst = false ∧ s.busy = false ∧ s.pins.writesCmd = true ∧ ∃ i, decode s.pins.wdata = .command i ∧
      exec i (sample s.pins s) = .next t) ∨
    (s.pins.rst = false ∧ s.busy = false ∧ s.pins.writesCmd = true ∧ ∃ why, decode s.pins.wdata = .reserved why ∧
      t = raiseError .cmd s.pins.wdata (sample s.pins s)) ∨
    (s.pins.rst = false ∧ s.busy = false ∧ s.pins.writesCmd = false ∧ t = hostWrite s.pins (sample s.pins s)) := by
  cases hr : s.pins.rst
  · cases hb : s.busy
    · cases hc : s.pins.writesCmd
      · rw [step_of_idle s hr hb hc] at h
        exact .inr (.inr (.inr (.inr ⟨rfl, rfl, rfl, (Host.Outcome.next.inj h).symm⟩)))
      · rw [step_of_command s hr hb hc, command] at h
        cases hd : decode s.pins.wdata with
        | command i => rw [hd] at h; exact .inr (.inr (.inl ⟨rfl, rfl, rfl, i, rfl, h⟩))
        | reserved why =>
          rw [hd] at h
          exact .inr (.inr (.inr (.inl ⟨rfl, rfl, rfl, why, rfl, (Host.Outcome.next.inj h).symm⟩)))
    · refine .inr (.inl ⟨rfl, rfl, ?_⟩)
      rw [step_of_busy s hr hb] at h
      unfold sequencerPart at h
      split at h
      · rename_i i hi
        obtain ⟨h1, h2⟩ := runningCommand_some _ _ hi
        rw [(hostWrite_keeps s.pins (sample s.pins s) (by simp [hb])).2.1, (sample_keeps _ _).2.1] at h1
        exact ⟨i, h1, h2, h⟩
      · cases h
  · rw [step_of_rst s hr] at h
    exact .inl ⟨rfl, (Host.Outcome.next.inj h).symm⟩

/-! ### Runs -/

theorem run_of_next (M : Host.Core) (n : Nat) (s t : M.State) (h : M.step s = .next t) :
    Host.Core.run M (n + 1) s = M.run n t := by simp [Host.Core.run, h]

theorem run_append (M : Host.Core) (m n : Nat) (s t : M.State) (h : M.run m s = .next t) :
    Host.Core.run M (m + n) s = M.run n t := by
  induction m generalizing s with
  | zero =>
    cases h; rw [Nat.zero_add]
  | succ m ih =>
    rw [Nat.succ_add]
    cases hs : M.step s with
    | next u => rw [run_of_next _ _ _ _ hs] at h ⊢; exact ih _ h
    | fault r => simp [Host.Core.run, hs] at h
    | refused r => simp [Host.Core.run, hs] at h

/-! ### Agreement of the data path -/

theorem SameWritten.refl (s : State) : SameWritten s s := ⟨rfl, fun _ _ => rfl, fun _ _ => rfl, fun _ => rfl⟩

/-- Bytes that nothing has written are not read: not through any address (R41, R231). -/
theorem SameWritten.busRead_eq {s s' : State} (h : SameWritten s s') (a : Addr) : busRead s' a = busRead s a := by
  obtain ⟨e, hk, hb, hw⟩ := h
  rw [e]
  unfold busRead
  cases locate a with
  | key i =>
    simp only [readLoc, ifWritten, decide_eq_true_eq]
    split
    · exact congrArg _ (hk i ‹_›)
    · rfl
  | blk i =>
    simp only [readLoc, ifIdle, ifWritten, decide_eq_true_eq]
    split
    · rfl
    · split
      · exact congrArg _ (hb i ‹_›)
      · rfl
  | w i =>
    simp only [readLoc, ifIdle, ifWritten]
    split
    · rfl
    · split
      · rw [hw ‹_›]
      · rfl
  | _ => rfl

theorem SameData.refl (a : State) : SameData a a := ⟨rfl, rfl, rfl, rfl, rfl, rfl, rfl, rfl, rfl⟩

theorem SameData.symm {a b : State} (h : SameData a b) : SameData b a := by
  obtain ⟨a1, a2, a3, a4, a5, a6, a7, a8, a9⟩ := h
  exact ⟨a1.symm, a2.symm, a3.symm, a4.symm, a5.symm, a6.symm, a7.symm, a8.symm, a9.symm⟩

theorem SameData.trans {a b c : State} (h : SameData a b) (h' : SameData b c) : SameData a c := by
  obtain ⟨a1, a2, a3, a4, a5, a6, a7, a8, a9⟩ := h
  obtain ⟨b1, b2, b3, b4, b5, b6, b7, b8, b9⟩ := h'
  exact ⟨b1.trans a1, b2.trans a2, b3.trans a3, b4.trans a4, b5.trans a5,
    b6.trans a6, b7.trans a7, b8.trans a8, b9.trans a9⟩

/-- The completion part of a command is a function of the data path (R181, R230). -/
theorem sameData_completionPart (i : Instr) (hw : WellFormed i) (hi : isBusyCommand i = true) {s t : State}
    (h : SameData s t) : SameData (completionPart i s) (completionPart i t) := by
  obtain ⟨a1, a2, a3, a4, a5, a6, a7, a8, a9⟩ := h
  have hu : scheduleInUse t = scheduleInUse s := by simp [scheduleInUse, a1, a5, a6]
  cases i with
  | nop => cases hi
  | clr => cases hi
  | enc =>
    simp only [completionPart, completeEnc, ensureSchedule_eq_expandedIfNeeded, expandedIfNeeded, State.setBlk, SameData,
      a1, a2, a3, a4, hu, a7, a8, a9, and_true]
  | dec =>
    simp only [completionPart, completeDec, ensureSchedule_eq_expandedIfNeeded, expandedIfNeeded, State.setBlk, SameData,
      a1, a2, a3, a4, hu, a7, a8, a9, and_true]
  | ark r =>
    simp only [completionPart, roundIndex_of_le hw, completeArk, ensureSchedule_eq_expandedIfNeeded, expandedIfNeeded,
      State.setBlk, SameData, a1, a2, a3, a4, hu, a7, a8, a9, and_true]
  | expand => simp only [completionPart, expand, State.setSchedule, SameData, a1, a2, a3, a4, a7, a8, a9, and_true]
  | gfmul => simp only [completionPart, State.setProd, SameData, a1, a2, a3, a4, a5, a6, a7, a8, and_true]
  | _ => simp only [completionPart, State.setBlk, SameData, a1, a2, a3, a4, a5, a6, a7, a8, a9, and_true]

end Sys2Proof.Machine
end

