-- ==== Sys2Proof/Laws/PerInstr.lean ====
section
/-! SUPPORT. Statements made per constructor of `Instr`. Family `TableMatch`: the encoder's byte agrees with the row's
`match` and `mask` of `spec/opcode_table.json`. -/

namespace Sys2Proof.Laws.TableMatch

/-- `mask` and `match` of the instruction's row in `spec/opcode_table.json`. -/
def tableRow : Instr → Byte × Byte
  | .nop => (0xFF, 0x00)
  | .enc => (0xFF, 0x10)
  | .dec => (0xFF, 0x20)
  | .expand => (0xFF, 0x30)
  | .gfmul => (0xFF, 0x40)
  | .subb => (0xFF, 0x50)
  | .isubb => (0xFF, 0x60)
  | .shr => (0xFF, 0x70)
  | .ishr => (0xFF, 0x80)
  | .mixc => (0xFF, 0x90)
  | .imixc => (0xFF, 0xA0)
  | .ark _ => (0xF0, 0xB0)
  | .clr _ _ => (0xFC, 0xC0)

/-- `(c & mask) == match` for the encoder's byte `c`. -/
def Statement (i : Instr) : Prop := encode i &&& (tableRow i).1 = (tableRow i).2

theorem nop : Statement .nop := rfl
theorem enc : Statement .enc := rfl
theorem dec : Statement .dec := rfl
theorem expand : Statement .expand := rfl
theorem gfmul : Statement .gfmul := rfl
theorem subb : Statement .subb := rfl
theorem isubb : Statement .isubb := rfl
theorem shr : Statement .shr := rfl
theorem ishr : Statement .ishr := rfl
theorem mixc : Statement .mixc := rfl
theorem imixc : Statement .imixc := rfl
theorem ark : ∀ r, Statement (.ark r) := by unfold Statement; decide
theorem clr : ∀ b k, Statement (.clr b k) := by unfold Statement; decide

end Sys2Proof.Laws.TableMatch
end

