-- ==== Sys2Proof/Machine/Timing.lean ====
section
/-! DEFINITION. The nominal latencies of R236, as data. Nothing of the model reads them: `LAT` is a free value (R235; log
10, log 15). -/

namespace Sys2Proof.Machine

/-- Nominal `LAT` of a command, given `KSVALID` at acceptance; 0 for a command that is never busy (R236). -/
def nominalLatency (i : Instr) (ksvalid : Bool) : Nat :=
  match i with
  | .enc | .dec => if ksvalid then 40 else 80
  | .expand => 40
  | .ark _ => if ksvalid then 1 else 41
  | .subb | .isubb | .shr | .ishr | .mixc | .imixc => 1
  | .gfmul => 8
  | .nop | .clr _ _ => 0

end Sys2Proof.Machine
end

