-- ==== Sys2Proof/Tests/Slice0.lean ====
section
/-! SUPPORT. Tests against the spec's own worked examples (`95_test_vectors.md` and the examples of the rules), the smoke test
of WellFormed, and for each statement with hypotheses a witness that meets them. -/

namespace Sys2Proof.Tests

open Sys2Proof Sys2Proof.Machine

/-! ### WellFormed -/

/-- The one ill-formed shape: a round index above 10 (R103). -/
theorem test_wellFormed_refuses_round_11 : wellFormed (.ark 11) = false := by decide
theorem test_wellFormed_refuses_round_15 : wellFormed (.ark 15) = false := by decide
theorem test_wellFormed_accepts_round_10 : wellFormed (.ark 10) = true := by decide

/-! ### Decoding: bytes written out from R101 and R102 -/

theorem test_decode_nop : decode 0b00000000#8 = .command .nop := by decide
theorem test_decode_enc : decode 0b00010000#8 = .command .enc := by decide
theorem test_decode_dec : decode 0b00100000#8 = .command .dec := by decide
theorem test_decode_expand : decode 0b00110000#8 = .command .expand := by decide
theorem test_decode_gfmul : decode 0b01000000#8 = .command .gfmul := by decide
theorem test_decode_subb : decode 0b01010000#8 = .command .subb := by decide
theorem test_decode_isubb : decode 0b01100000#8 = .command .isubb := by decide
theorem test_decode_shr : decode 0b01110000#8 = .command .shr := by decide
theorem test_decode_ishr : decode 0b10000000#8 = .command .ishr := by decide
theorem test_decode_mixc : decode 0b10010000#8 = .command .mixc := by decide
theorem test_decode_imixc : decode 0b10100000#8 = .command .imixc := by decide
theorem test_decode_ark_0 : decode 0b10110000#8 = .command (.ark 0) := by decide
theorem test_decode_ark_10 : decode 0b10111010#8 = .command (.ark 10) := by decide
theorem test_decode_clr_k : decode 0b11000001#8 = .command (.clr false true) := by decide
theorem test_decode_clr_b : decode 0b11000010#8 = .command (.clr true false) := by decide
theorem test_decode_reserved_a : decode 0x1F#8 = .reserved .argNotZero := by decide
theorem test_decode_reserved_b : decode 0xBB#8 = .reserved .roundAboveTen := by decide
theorem test_decode_reserved_c : decode 0xC4#8 = .reserved .maskBitsNotZero := by decide
theorem test_decode_reserved_d : decode 0xD0#8 = .reserved .reservedOpcode := by decide
/-- R109: `CMD ARK 3` writes `0xB3`, `CMD CLR KB` writes `0xC3`. -/
theorem test_encode_r109 : encode (.ark 3) = 0xB3#8 ∧ encode (.clr true true) = 0xC3#8 := by decide
/-- R108: the three examples of access words. -/
theorem test_accessWord_r108 : accessWord (Pins.write Port.cmd 0x10#8) = 0x40010#19 ∧
    accessWord (Pins.write Port.keyin 0xAB#8) = 0x405AB#19 ∧ accessWord (Pins.read Port.status) = 0x00100#19 := by decide

/-! ### The functions, on the vectors of `95_test_vectors.md` -/

/-- Byte `i` holds `i` (section 6). -/
def counting : Block := hexBlock 0x000102030405060708090a0b0c0d0e0f

theorem test_xtime : xtime 0x57#8 = 0xAE#8 ∧ xtime 0xAE#8 = 0x47#8 ∧ xtime 0x80#8 = 0x1B#8 ∧ xtime 0xFF#8 = 0xE5#8 := by
  decide
theorem test_gfMul : gfMul 0x57#8 0x13#8 = 0xFE#8 ∧ gfMul 0x57#8 0x83#8 = 0xC1#8 ∧ gfMul 0x53#8 0xCA#8 = 0x01#8 ∧
    gfMul 0x1B#8 0x80#8 = 0x2F#8 := by decide
/-- R138. -/
theorem test_schedule_word : addRcon (subWord (rotWord #v[0x0C, 0x0D, 0x0E, 0x0F])) 0 = #v[0xD6, 0xAB, 0x76, 0xFE] := by
  decide +kernel
/-- Schedule A, round keys 1 and 10 (R136). -/
theorem test_expandKey_A : roundKey (expandKey counting) 1 = hexBlock 0xd6aa74fdd2af72fadaa678f1d6ab76fe ∧
    roundKey (expandKey counting) 10 = hexBlock 0x13111d7fe3944a17f307a78b4d2b30c5 := by decide +kernel
theorem test_subBytes : subBytes counting = hexBlock 0x637c777bf26b6fc53001672bfed7ab76 := by decide +kernel
theorem test_invSubBytes : invSubBytes counting = hexBlock 0x52096ad53036a538bf40a39e81f3d7fb := by decide +kernel
theorem test_shiftRows : shiftRows counting = hexBlock 0x00050a0f04090e03080d02070c01060b := by decide +kernel
theorem test_invShiftRows : invShiftRows counting = hexBlock 0x000d0a0704010e0b0805020f0c090603 := by decide +kernel
theorem test_mixColumns : mixColumns counting = hexBlock 0x02070005060304010a0f080d0e0b0c09 := by decide +kernel
theorem test_invMixColumns : invMixColumns counting = hexBlock 0x0a0f080d0e0b0c090207000506030401 := by decide +kernel
/-- R146, with round key 1 of schedule A put where round key 1 stands. -/
theorem test_addRoundKey :
    addRoundKey (hexBlock 0x5f72641557f5bc92f7be3b291db9f91a)
      (Vector.ofFn fun i : Fin 176 => (hexBlock 0xd6aa74fdd2af72fadaa678f1d6ab76fe)[i.val % 16]) 1 =
      hexBlock 0x89d810e8855ace682d1843d8cb128fe4 := by decide +kernel
/-- S1, DOC0's known answer: ENC. -/
theorem test_cipher_S1 : cipher (hexBlock 0x00112233445566778899aabbccddeeff) (expandKey counting) =
    hexBlock 0x69c4e0d86a7b0430d8cdb78070b4c55a := by decide +kernel
/-- S2, the all-zero vector of the source. -/
theorem test_cipher_S2 : cipher (hexBlock 0) (expandKey (hexBlock 0)) = hexBlock 0x66e94bd4ef8a2c3b884cfa59ca342b2e := by
  decide +kernel
/-- S1, backwards: DEC (trace D1). -/
theorem test_invCipher_S1 : invCipher (hexBlock 0x69c4e0d86a7b0430d8cdb78070b4c55a) (expandKey counting) =
    hexBlock 0x00112233445566778899aabbccddeeff := by decide +kernel

/-! ### Small states -/

/-- An idle core with the given lengths. -/
def idle (k b : Nat) : State := { State.reset with keylen := BitVec.ofNat 5 k, blklen := BitVec.ofNat 5 b }

/-- A core that runs the command of byte `c` and has `n` busy cycles left, with key and block loaded. -/
def running (c : Byte) (n : Nat) : State :=
  { State.reset with busy := true, seqOp := c, seqCnt := n, keylen := 16#5, blklen := 16#5, keyHi := 16, blkHi := 16 }

/-- The host's next access. -/
def hosting (p : Pins) (s : State) : State := { s with host := [p] }

/-- Whether a step answers a next state of which `f` holds. -/
def holdsAfter (o : Host.Outcome State Fault Refusal) (f : State → Bool) : Bool :=
  match o with
  | .next t => f t
  | .fault _ => false
  | .refused _ => false

/-! ### Single steps -/

/-- R162, R201: after reset ENC is refused with both lengths bad. -/
theorem test_enc_refused_after_reset : holdsAfter (step (State.reset.withFetchWord 8 0x10)) (fun t =>
    t.err && t.errcode == 0x01#8 && t.errinfo == 0x13#8 && !t.busy) = true := by decide
/-- R201: ENC with a 15-byte block and a good key gives `0x12`. -/
theorem test_enc_short_block : holdsAfter (exec .enc (idle 16 15)) (fun t => t.errcode == 0x01#8 && t.errinfo == 0x12#8) =
    true := by decide
/-- R163, R201: a bad key only gives bit 0. -/
theorem test_dec_long_key : holdsAfter (exec .dec (idle 17 16)) (fun t => t.errcode == 0x01#8 && t.errinfo == 0x21#8) =
    true := by decide
/-- R136. -/
theorem test_expand_short_key : holdsAfter (exec .expand (idle 15 0)) (fun t => t.errinfo == 0x31#8 && !t.busy) = true := by
  decide
/-- R201: ARK 5 with no key and no block gives `0xB3`, not the round index. -/
theorem test_ark_info_is_opcode : holdsAfter (exec (.ark 5) (idle 0 0)) (fun t => t.errinfo == 0xB3#8) = true := by decide
/-- R201: `0xBB` written to `CMD` gives `0x02`, `0xBB`, whatever the lengths. -/
theorem test_reserved_byte : holdsAfter (step (State.reset.withFetchWord 8 0xBB)) (fun t =>
    t.errcode == 0x02#8 && t.errinfo == 0xBB#8 && !t.busy) = true := by decide
/-- R182: `STATUS` is `0x32` before and after NOP. -/
theorem test_nop_keeps_status : holdsAfter (exec .nop { idle 16 16 with done := true }) (fun t => statusByte t == 0x32#8) =
    true := by decide
/-- R183: CLR B leaves `KEYLEN` and `KSVALID`, `STATUS` is `0x18`. -/
theorem test_clr_b : holdsAfter (exec (.clr true false) { idle 16 16 with ksvalid := true }) (fun t =>
    t.keylen == 16#5 && t.blklen == 0#5 && statusByte t == 0x18#8) = true := by decide
/-- R183: CLR K clears the valid bit too. -/
theorem test_clr_k : holdsAfter (exec (.clr false true) { idle 16 16 with ksvalid := true }) (fun t =>
    t.keylen == 0#5 && t.blklen == 16#5 && !t.ksvalid) = true := by decide
/-- R123: GFMUL is accepted after reset; `STATUS` is then `0x01`. -/
theorem test_gfmul_accepted : holdsAfter (step (State.reset.withFetchWord 8 0x40)) (fun t => statusByte t == 0x01#8) =
    true := by decide
/-- R123: its completion. -/
theorem test_gfmul_completes : holdsAfter (exec .gfmul { running 0x40#8 1 with opa := 0x57#8, opb := 0x83#8 }) (fun t =>
    t.prod == 0xC1#8 && t.opa == 0x57#8 && !t.busy && t.done) = true := by decide
/-- R149: SHR at its completion edge. -/
theorem test_shr_completes : holdsAfter (exec .shr { running 0x70#8 1 with blk := counting }) (fun t =>
    t.blk == hexBlock 0x00050a0f04090e03080d02070c01060b) = true := by decide +kernel
/-- R153: ARK 0 combines with the key itself; `KSVALID` rises. -/
theorem test_ark_0_completes : holdsAfter (exec (.ark 0) { running 0xB0#8 1 with
    blk := hexBlock 0x00112233445566778899aabbccddeeff, key := counting }) (fun t =>
    t.blk == hexBlock 0x00102030405060708090a0b0c0d0e0f0 && t.ksvalid) = true := by decide +kernel
/-- R74: the 17th byte is counted and not stored, and the schedule is invalid. -/
theorem test_keyin_17th : holdsAfter (step (hosting (Pins.write Port.keyin 0xFF#8) { idle 16 0 with ksvalid := true }))
    (fun t => t.keylen == 17#5 && t.key == (idle 16 0).key && !t.ksvalid) = true := by decide
/-- R22: the counter saturates at 31. -/
theorem test_keyin_saturates : holdsAfter (step (hosting (Pins.write Port.keyin 0xFF#8) (idle 31 0)))
    (fun t => t.keylen == 31#5) = true := by decide
/-- R75: the last byte goes to index 15. -/
theorem test_blkin_16th : holdsAfter (step (hosting (Pins.write Port.blkin 0xAB#8) { idle 0 15 with blkHi := 15 }))
    (fun t => t.blk[15] == 0xAB#8 && t.blklen == 16#5 && t.blkHi == 16) = true := by decide
/-- R199, R201: `KEYIN` written in the last busy cycle: the error is recorded and the command completes. -/
theorem test_error_and_completion : holdsAfter (step (hosting (Pins.write Port.keyin 0xFF#8) (running 0x40#8 1)))
    (fun t => t.errcode == 0x03#8 && t.errinfo == 0x05#8 && t.keylen == 16#5 && t.done && !t.busy) = true := by decide
/-- R204: the acknowledging write in the last busy cycle does not lose the completion. -/
theorem test_done_set_wins : holdsAfter (step (hosting (Pins.write Port.status 0x06#8)
    { running 0x40#8 1 with err := true })) (fun t => t.done && !t.err) = true := by decide
/-- R193: a reserved byte written while busy gives ERR_BUSY, not ERR_CMD. -/
theorem test_reserved_while_busy : holdsAfter (step (hosting (Pins.write Port.cmd 0xFF#8) (running 0x40#8 2)))
    (fun t => t.errcode == 0x03#8 && t.errinfo == 0x00#8 && t.busy && t.seqCnt == 1) = true := by decide
/-- R220: reset wins over a bus write and over a completion. -/
theorem test_reset_wins : holdsAfter (step (hosting
    { rst := true, sel := true, wr := true, addr := Port.opa, wdata := 0x57#8 } (running 0x40#8 1)))
    (fun t => t.opa == 0x00#8 && !t.busy && !t.done && t.keylen == 0#5) = true := by decide
/-- R221, R238: a read of `ID` is recorded. -/
theorem test_read_id : holdsAfter (step (hosting (Pins.read 0x00C#10) State.reset)) (fun t => t.reads == [0xAE#8]) = true := by
  decide
/-- R236: two rows of the table of nominal latencies. -/
theorem test_nominal : nominalLatency .enc false = 80 ∧ nominalLatency (.ark 0) true = 1 := by decide

/-! ### Witnesses: for each statement with hypotheses, values that meet them, at the edges of their ranges -/

theorem witness_DecodeOfEncodeIsTheCommand : WellFormed (.ark 10) ∧ WellFormed (.clr true true) := ⟨(wellFormed_iff _).1 (by decide), trivial⟩
theorem witness_DecodedByteIsTheEncoding : decode 0xBA#8 = .command (.ark 10) := by decide
theorem witness_ReservedBytesRaiseErrCmd :
    (hosting (Pins.write Port.cmd 0x01#8) (idle 0 0)).busy = false ∧
    (hosting (Pins.write Port.cmd 0x01#8) (idle 0 0)).pins = Pins.write Port.cmd 0x01#8 ∧
    decode 0x01#8 = .reserved .argNotZero ∧ decode 0xBF#8 = .reserved .roundAboveTen ∧
    decode 0xC4#8 = .reserved .maskBitsNotZero ∧ decode 0xCF#8 = .reserved .maskBitsNotZero ∧
    decode 0xFF#8 = .reserved .reservedOpcode := by decide
theorem witness_AccessWordRoundTrip :
    (∃ p : Pins, p.rst = false ∧ p.sel = true ∧ p.wr = false ∧ p.wdata = 0x00#8 ∧ p.addr = 0x3FF#10) ∧
    ∃ p : Pins, p.rst = false ∧ p.sel = true ∧ p.wr = true ∧ p.wdata = 0xFF#8 :=
  ⟨⟨Pins.read 0x3FF#10, by decide⟩, ⟨Pins.write 0x000#10 0xFF#8, by decide⟩⟩
theorem witness_StepIssuesTheDecodedCommand :
    let s := hosting (Pins.write Port.cmd 0xBA#8) (idle 16 16)
    s.busy = false ∧ s.pins = Pins.write Port.cmd 0xBA#8 ∧ decode 0xBA#8 = .command (.ark 10) := by decide
theorem witness_StepRunsTheBusyCommand :
    let s := hosting (Pins.write Port.status 0x02#8) (running 0x10#8 1)
    s.pins.rst = false ∧ s.busy = true ∧ decode s.seqOp = .command .enc ∧ isBusyCommand .enc = true := by decide
theorem witness_FetchWordIsIssuedNext : WellFormed (.ark 0) ∧ WellFormed .nop := ⟨(wellFormed_iff _).1 (by decide), trivial⟩
theorem witness_NopDoesNothing : (idle 0 0).busy = false ∧ (running 0x10#8 1).busy = true ∧
    0 < (0x01#8).toNat ∧ (0x01#8).toNat < 16 ∧ 0 < (0x0F#8).toNat ∧ (0x0F#8).toNat < 16 := by decide
theorem witness_ClrClearsLengths : (idle 16 16).busy = false ∧ (running 0x10#8 1).busy = true ∧
    0xC4 ≤ (0xC4#8).toNat ∧ (0xCF#8).toNat ≤ 0xCF := by decide
theorem witness_ClrClearsLengths_falls :
    (∃ t, step (hosting (Pins.write Port.cmd 0xC1#8) (idle 1 0)) = .next t ∧ t.keylen.toNat < (idle 1 0).keylen.toNat) ∧
    ∃ t, step (hosting (Pins.write Port.cmd 0xC2#8) (idle 0 31)) = .next t ∧ t.blklen.toNat < (idle 0 31).blklen.toNat :=
  ⟨⟨_, rfl, by decide⟩, ⟨_, rfl, by decide⟩⟩
theorem witness_GfmulMultiplies : (idle 0 0).busy = false ∧ (running 0x40#8 1).busy = true ∧
    (running 0x40#8 1).seqCnt = 1 := by decide
theorem witness_ExpandExpandsTheKey :
    ((idle 15 0).busy = false ∧ (idle 15 0).keylen ≠ 16#5) ∧ ((idle 17 0).busy = false ∧ (idle 17 0).keylen ≠ 16#5) ∧
    ((idle 16 0).busy = false ∧ (idle 16 0).keylen = 16#5) ∧
    (running 0x30#8 1).busy = true ∧ (running 0x30#8 1).seqCnt = 1 := by decide
theorem witness_EncEncrypts :
    ((idle 16 15).busy = false ∧ (idle 16 15).blklen ≠ 16#5) ∧ ((idle 17 16).busy = false ∧ (idle 17 16).keylen ≠ 16#5) ∧
    ((idle 16 16).busy = false ∧ (idle 16 16).keylen = 16#5 ∧ (idle 16 16).blklen = 16#5) ∧
    (running 0x10#8 1).busy = true ∧ (running 0x10#8 1).seqCnt = 1 ∧ (running 0x10#8 1).ksvalid = false := by decide
theorem witness_DecDecrypts :
    ((idle 16 17).busy = false ∧ (idle 16 17).blklen ≠ 16#5) ∧ ((idle 16 16).busy = false ∧ (idle 16 16).keylen = 16#5 ∧
    (idle 16 16).blklen = 16#5) ∧ (running 0x20#8 1).busy = true ∧ (running 0x20#8 1).seqCnt = 1 := by decide
theorem witness_SubbAndIsubbSubstitute :
    ((idle 0 15).busy = false ∧ (idle 0 15).blklen ≠ 16#5) ∧ ((idle 0 16).busy = false ∧ (idle 0 16).blklen = 16#5) ∧
    (running 0x50#8 1).busy = true ∧ (running 0x50#8 1).seqCnt = 1 ∧ (running 0x60#8 1).seqCnt = 1 := by decide
theorem witness_ShrAndIshrRotateRows :
    ((idle 0 17).busy = false ∧ (idle 0 17).blklen ≠ 16#5) ∧ ((idle 0 16).busy = false ∧ (idle 0 16).blklen = 16#5) ∧
    (running 0x70#8 1).busy = true ∧ (running 0x70#8 1).seqCnt = 1 ∧ (running 0x80#8 1).seqCnt = 1 := by decide
theorem witness_MixcAndImixcMixColumns :
    ((idle 0 0).busy = false ∧ (idle 0 0).blklen ≠ 16#5) ∧ ((idle 0 16).busy = false ∧ (idle 0 16).blklen = 16#5) ∧
    (running 0x90#8 1).busy = true ∧ (running 0x90#8 1).seqCnt = 1 ∧ (running 0xA0#8 1).seqCnt = 1 := by decide
theorem witness_ArkAddsTheRoundKey :
    (0#4).toNat ≤ 10 ∧ (10#4).toNat ≤ 10 ∧ ((idle 15 16).busy = false ∧ (idle 15 16).keylen ≠ 16#5) ∧
    ((idle 16 16).busy = false ∧ (idle 16 16).keylen = 16#5 ∧ (idle 16 16).blklen = 16#5) ∧
    ((running 0xBA#8 1).busy = true ∧ (running 0xBA#8 1).seqCnt = 1) ∧
    0xBB ≤ (0xBB#8).toNat ∧ (0xBF#8).toNat ≤ 0xBF := by decide
theorem witness_WrongLengthIsRefused : WellFormed (.ark 10) ∧ (idle 15 16).busy = false ∧ needsKey (.ark 10) = true ∧
    (idle 15 16).keylen ≠ 16#5 ∧ needsBlock .shr = true ∧ (idle 16 17).blklen ≠ 16#5 :=
  ⟨(wellFormed_iff _).1 (by decide), by decide⟩
theorem witness_RightLengthsAreAccepted : WellFormed (.ark 0) ∧ isBusyCommand (.ark 0) = true ∧ (idle 16 16).busy = false ∧
    (idle 16 16).keylen = 16#5 ∧ (idle 16 16).blklen = 16#5 :=
  ⟨(wellFormed_iff _).1 (by decide), by decide⟩
theorem witness_BusyCyclesCountDown : WellFormed (.ark 10) ∧ isBusyCommand (.ark 10) = true ∧
    ((running 0xBA#8 2).busy = true ∧ 1 < (running 0xBA#8 2).seqCnt) ∧
    (running 0xBA#8 1).busy = true ∧ (running 0xBA#8 1).seqCnt = 1 :=
  ⟨(wellFormed_iff _).1 (by decide), by decide⟩
theorem witness_CommandWriteSets : WellFormed .mixc ∧ (∃ t, exec .mixc (running 0x90#8 1) = .next t) ∧
    (running 0x90#8 1).busy = true ∧ isBusyCommand .mixc = true ∧ keyBad .enc (idle 16 16) = false ∧
    blkBad .enc (idle 16 16) = false ∧ (idle 16 16).busy = false := ⟨trivial, ⟨_, rfl⟩, by decide⟩
theorem witness_CommandsLeaveOtherBytes : WellFormed .expand ∧ (∃ t, exec .expand (running 0x30#8 1) = .next t) ∧
    0x020 ≤ (0x020#10).toNat ∧ (0x02F#10).toNat < 0x030 ∧ WellFormed .shr ∧ (∃ t, exec .shr (running 0x70#8 1) = .next t) ∧
    0x100 ≤ (0x100#10).toNat ∧ (0x1AF#10).toNat < 0x1B0 ∧ 0x010 ≤ (0x010#10).toNat ∧
    ¬(0x020 ≤ (0x030#10).toNat ∧ (0x030#10).toNat < 0x030) :=
  ⟨trivial, ⟨_, rfl⟩, by decide, by decide, trivial, ⟨_, rfl⟩, by decide⟩
theorem witness_KeyinStreamsOneByte :
    (hosting (Pins.write Port.keyin 0x00#8) (idle 15 0)).busy = false ∧
    (hosting (Pins.write Port.keyin 0x00#8) (idle 31 0)).pins = Pins.write Port.keyin 0x00#8 ∧
    (running 0x10#8 1).busy = true := by decide
theorem witness_BlkinStreamsOneByte :
    (hosting (Pins.write Port.blkin 0xFF#8) (idle 0 31)).busy = false ∧
    (hosting (Pins.write Port.blkin 0xFF#8) (idle 0 15)).pins = Pins.write Port.blkin 0xFF#8 ∧
    (running 0x10#8 1).busy = true := by decide
theorem witness_OverlongLoadIsReported :
    (let s := hosting (Pins.write Port.keyin 0xFF#8) (idle 16 0)
     s.busy = false ∧ 16 ≤ s.keylen.toNat ∧ s.pins = Pins.write Port.keyin 0xFF#8) ∧
    (let s := hosting (Pins.write Port.blkin 0xFF#8) (idle 0 31)
     s.busy = false ∧ 16 ≤ s.blklen.toNat ∧ s.pins = Pins.write Port.blkin 0xFF#8) ∧
    WellFormed (.ark 10) ∧ needsKey (.ark 10) = true ∧ needsBlock (.ark 10) = true :=
  ⟨by decide, by decide, (wellFormed_iff _).1 (by decide), by decide, by decide⟩
theorem witness_OperandAndControlWrites :
    (hosting (Pins.write Port.opa 0xFF#8) (idle 0 0)).pins = Pins.write Port.opa 0xFF#8 ∧
    (hosting (Pins.write Port.opb 0x00#8) (idle 0 0)).pins = Pins.write Port.opb 0x00#8 ∧
    (hosting (Pins.write Port.ctrl 0x03#8) (idle 0 0)).pins = Pins.write Port.ctrl 0x03#8 ∧
    (hosting (Pins.write Port.opa 0xFF#8) (idle 0 0)).busy = false ∧ (running 0x10#8 1).busy = true := by decide
theorem witness_StatusWriteAcknowledges :
    let s := hosting (Pins.write Port.status 0x06#8) { idle 0 0 with done := true, err := true }
    s.busy = false ∧ s.pins = Pins.write Port.status 0x06#8 := by decide
theorem witness_StatusWriteAcknowledges_busy :
    let s := hosting (Pins.write Port.status 0x04#8) (running 0xB0#8 1)
    s.busy = true ∧ s.pins = Pins.write Port.status 0x04#8 ∧ decode s.seqOp = .command (.ark 0) ∧
    isBusyCommand (.ark 0) = true := by decide
theorem witness_CountsDown : (running 0x30#8 2).busy = true ∧ 1 < (running 0x30#8 2).seqCnt := by decide
theorem witness_scheduleInUse : ∃ s : State, s.ksvalid = true ∧ s.w = expandKey s.key :=
  ⟨{ idle 16 16 with ksvalid := true, w := expandKey counting, key := counting }, rfl, rfl⟩
theorem witness_DoneSetWinsOverClear :
    let s := hosting (Pins.write Port.status 0x02#8) (running 0xA0#8 1)
    s.busy = true ∧ s.seqCnt = 1 ∧ decode s.seqOp = .command .imixc ∧ isBusyCommand .imixc = true ∧
    s.pins = Pins.write Port.status 0x02#8 := by decide
theorem witness_OtherWritesAreIgnored :
    let s := hosting (Pins.write 0x010#10 0xFF#8) (idle 0 0)
    (0x010#10 ≠ Port.status ∧ 0x010#10 ≠ Port.ctrl ∧ s.busy = false ∧ s.pins = Pins.write 0x010#10 0xFF#8) ∧
    ¬RefusedPort 0x010#10 ∧ ¬RefusedPort 0x3FF#10 ∧ 0x03A ≤ (0x03A#10).toNat ∧ (0x0FF#10).toNat ≤ 0x0FF ∧
    0x1B0 ≤ (0x1B0#10).toNat ∧ (0x1FF#10).toNat ≤ 0x1FF := by
  refine ⟨by decide, ?_, ?_, by decide⟩ <;> unfold RefusedPort <;> decide
theorem witness_BusyWritesAreRefused :
    (let s := hosting (Pins.write Port.opb 0xFF#8) (running 0x10#8 1)
     s.busy = true ∧ decode s.seqOp = .command .enc ∧ isBusyCommand .enc = true ∧ s.pins = Pins.write Port.opb 0xFF#8) ∧
    RefusedPort Port.opb ∧ RefusedPort Port.cmd ∧
    ¬((Pins.write Port.ctrl 0xFF#8).isWrite = true ∧ RefusedPort (Pins.write Port.ctrl 0xFF#8).addr) ∧
    (hostWrite (Pins.write Port.ctrl 0xFF#8) { running 0x10#8 1 with err := true }).err = true := by
  refine ⟨by decide, ?_, ?_, ?_, by decide⟩ <;> unfold RefusedPort <;> decide
theorem witness_FirstErrorWins : ({ idle 0 0 with err := true, errcode := 0x01#8 } : State).err = true ∧
    (Pins.write Port.cmd 0x00#8).isWrite = true ∧ (Pins.write Port.cmd 0x00#8).addr ≠ Port.status := by decide
theorem witness_ReadsHaveNoSideEffect :
    (let s := hosting (Pins.read 0x3FF#10) (idle 0 0)
     s.pins.rst = false ∧ s.pins.sel = true ∧ s.pins.wr = false ∧ s.busy = false) ∧
    (let s := hosting (Pins.read 0x020#10) (running 0x40#8 1)
     s.pins.rst = false ∧ s.pins.sel = true ∧ s.pins.wr = false ∧ s.busy = true ∧ decode s.seqOp = .command .gfmul ∧
     isBusyCommand .gfmul = true) ∧
    ((idle 0 0).pins.rst = false ∧ (idle 0 0).pins.sel = false ∧ (running 0x40#8 1).pins.sel = false) ∧
    busRead (idle 0 0) (Pins.read 0x00C#10).addr = .byte 0xAE#8 ∧ (Pins.write Port.opa 0x00#8).wr = true := by decide
/-- R64, R231: a read of `BLK` in the last busy cycle returns a free value, counted as one draw, and the command completes. -/
theorem test_read_while_busy : holdsAfter (step (hosting (Pins.read 0x020#10) (running 0x40#8 1))) (fun t =>
    t.draws == 1 && t.reads.length == 1 && t.done && !t.busy) = true := by decide
theorem witness_ReadColumnOfTheMap : (idle 16 16).busy = false ∧ (0 : Fin 16).val < (running 0x10#8 1).keyHi ∧
    0x03A ≤ (0x03A#10).toNat ∧ (0x0FF#10).toNat ≤ 0x0FF ∧ 0x1B0 ≤ (0x1B0#10).toNat ∧ (0x1FF#10).toNat ≤ 0x1FF := by decide
theorem witness_ReadsWhileBusy : (running 0x10#8 1).busy = true ∧
    (0x020 ≤ (0x020#10).toNat ∧ (0x02F#10).toNat < 0x030 ∧ 0x100 ≤ (0x100#10).toNat ∧ (0x1AF#10).toNat < 0x1B0) ∧
    (∀ a ∈ [0x00A#10, 0x00C#10, 0x01F#10, 0x030#10, 0x0FF#10, 0x1B0#10], a ≠ 0x00B#10 ∧
      ¬(0x020 ≤ a.toNat ∧ a.toNat < 0x030) ∧ ¬(0x100 ≤ a.toNat ∧ a.toNat < 0x1B0) ∧ a ≠ Port.status) := by decide
theorem witness_ResetEdgeResets : (hosting Pins.reset (running 0x10#8 1)).pins.rst = true := by decide
theorem witness_InterruptOutput :
    (let s := hosting (Pins.write Port.ctrl 0x01#8) { idle 0 0 with done := true }
     s.busy = false ∧ s.done = true ∧ s.pins = Pins.write Port.ctrl 0x01#8) ∧
    WellFormed .gfmul ∧
    let s := { running 0x40#8 1 with die := true }
    s.busy = true ∧ s.seqCnt = 1 ∧ isBusyCommand .gfmul = true ∧ s.die = true := ⟨by decide, trivial, by decide⟩
theorem witness_KeyChangeInvalidatesTheSchedule :
    ∃ t, step (hosting (Pins.write Port.keyin 0xFF#8) { idle 15 0 with ksvalid := true }) = .next t ∧
      t.keylen ≠ (idle 15 0).keylen := ⟨_, rfl, by decide⟩
theorem witness_BusyRisesOnlyByAcceptance :
    ∃ t, step (hosting (Pins.write Port.cmd 0x10#8) (idle 16 16)) = .next t ∧ (idle 16 16).busy = false ∧ t.busy = true :=
  ⟨_, rfl, rfl, rfl⟩
theorem witness_DoneBelongsToTheLastCommand :
    (∃ t, step (running 0x40#8 1) = .next t ∧ (running 0x40#8 1).done = false ∧ t.done = true ∧ t.busy = false ∧
      (running 0x40#8 1).pins.rst = false) ∧
    ∃ t, step (hosting (Pins.write Port.cmd 0x40#8) { idle 0 0 with done := true }) = .next t ∧ t.done = false ∧
      t.busy = true := ⟨⟨_, rfl, rfl, rfl, rfl, rfl⟩, ⟨_, rfl, rfl, rfl⟩⟩
theorem witness_GfMulLaws : (0x01#8 : Byte) ≠ 0x00#8 ∧ (0xFF#8 : Byte) ≠ 0x00#8 := by decide
theorem witness_ExpandKeyRecurrence : 4 ≤ (4 : Fin 44).val ∧ 4 ≤ (43 : Fin 44).val ∧ 4 ≤ (40 : Fin 44).val := by decide
theorem witness_BlockCommandsAreUnitCommands : (idle 16 16).busy = false ∧ (idle 16 16).keylen = 16#5 ∧
    (idle 16 16).blklen = 16#5 := by decide

/-- A running ENC meets the invariant. -/
theorem witness_inv_running : CoreInv (running 0x10#8 2) where
  running _ := ⟨.enc, by decide, by decide, by decide, by decide⟩
  counting _ := by decide
  schedule h := absurd h (by decide)
  noError _ := by decide
  legalError h := absurd h (by decide)
  keyMark := by decide
  blkMark := by decide

theorem witness_StepKeepsTheInvariant : CoreInv (running 0x10#8 2) ∧ ∃ t, step (running 0x10#8 2) = .next t :=
  ⟨witness_inv_running, ⟨_, rfl⟩⟩
theorem witness_NothingIsStuck : CoreInv (running 0x10#8 2) := witness_inv_running
theorem witness_CommandsReadOnlyWrittenBytes : CoreInv (running 0x10#8 2) ∧
    SameWritten (running 0x10#8 2) { running 0x10#8 2 with w := expandKey counting } ∧
    (running 0x10#8 2).w ≠ expandKey counting ∧ (running 0x10#8 2).busy = true ∧
    decode (running 0x10#8 2).seqOp = .command .enc ∧ needsKey .enc = true ∧ needsBlock .enc = true :=
  ⟨witness_inv_running, ⟨rfl, fun _ _ => rfl, fun _ _ => rfl, fun h => absurd h (by decide)⟩, by decide +kernel, by decide⟩
theorem witness_CommandsReadOnlyWrittenBytes_idle : CoreInv State.reset ∧
    SameWritten State.reset { State.reset with key := counting, blk := counting } ∧ State.reset.key ≠ counting ∧
    State.reset.busy = false ∧ WellFormed .gfmul :=
  ⟨⟨fun h => absurd h (by decide), fun h => absurd h (by decide), fun h => absurd h (by decide), fun _ => by decide,
    fun h => absurd h (by decide), by decide, by decide⟩,
   ⟨rfl, fun i h => absurd h (Nat.not_lt_zero _), fun i h => absurd h (Nat.not_lt_zero _), fun _ => rfl⟩,
   by decide, rfl, trivial⟩
/-- R201: ARK with both lengths bad records `0xB3`, one of the length errors of the invariant; SUBB never records a bad
key, and an opcode that needs no length is no length error. -/
theorem test_lengthErrorOf : LengthErrorOf (.ark 5) 0xB3#8 ∧ ¬LengthErrorOf .subb 0x51#8 ∧ ¬LengthErrorOf .gfmul 0x42#8 := by
  unfold LengthErrorOf; exact ⟨⟨true, true, by decide⟩, by decide, by decide⟩
theorem witness_RunningCommandCompletes :
    let s := hosting (Pins.write Port.cmd 0xFF#8) (running 0x10#8 2)
    s.busy = true ∧ 1 ≤ s.seqCnt ∧ decode s.seqOp = .command .enc ∧ isBusyCommand .enc = true ∧ NoResetIn s.seqCnt s := by
  refine ⟨by decide, by decide, by decide, by decide, ?_⟩; unfold NoResetIn; decide
theorem witness_CyclesRefineTransactions :
    let s := hosting (cmdLine .enc) (idle 16 16)
    (WellFormed .enc ∧ isBusyCommand .enc = true ∧ s.busy = false ∧ keyBad .enc s = false ∧ blkBad .enc s = false ∧
      s.pins = cmdLine .enc) ∧ ∃ a, step s = .next a ∧ NoResetIn a.seqCnt a :=
  ⟨⟨trivial, by decide⟩, _, rfl, fun p hp =>
    absurd (show p ∈ ([] : List Pins) from List.mem_of_mem_take hp) List.not_mem_nil⟩
theorem witness_HostCannotDisturbARunningCommand :
    let s₁ := running 0x10#8 1
    let s₂ := hosting (Pins.write Port.cmd 0xFF#8) { running 0x10#8 1 with err := true, die := true }
    SameData s₁ s₂ ∧ s₁.busy = true ∧ s₂.busy = true ∧ s₂.seqOp = s₁.seqOp ∧ s₂.seqCnt = s₁.seqCnt ∧
    decode s₁.seqOp = .command .enc ∧ isBusyCommand .enc = true ∧ s₁.pins.rst = false ∧ s₂.pins.rst = false :=
  ⟨⟨rfl, rfl, rfl, rfl, rfl, rfl, rfl, rfl, rfl⟩, by decide⟩
theorem witness_LoadSequencesLoad : (idle 31 31).busy = false ∧
    ({ idle 31 31 with host := ldkey counting ++ [Pins.idle] } : State).host = ldkey counting ++ [Pins.idle] ∧
    ({ idle 31 31 with host := ldblk counting ++ [] } : State).host = ldblk counting ++ [] := ⟨rfl, rfl, rfl⟩
theorem witness_BlocksAreTransformedThroughTheBus : ∀ dec : Bool,
    let l := ldkey counting ++ (ldblk counting ++ (cmdLine (if dec then .dec else .enc) :: [Pins.read Port.status]))
    ({ idle 31 31 with host := l } : State).busy = false ∧ ({ idle 31 31 with host := l } : State).host = l ∧
    ∀ n, (∀ q ∈ [Pins.read Port.status].take n, q.rst = false) ∧ ∀ q ∈ [Pins.read Port.status].take n, q.isWrite = false :=
  fun _ => ⟨rfl, rfl, fun n => ⟨fun q h => by rw [List.mem_singleton.1 (List.mem_of_mem_take h)]; rfl,
    fun q h => by rw [List.mem_singleton.1 (List.mem_of_mem_take h)]; rfl⟩⟩

end Sys2Proof.Tests
end

section
/-! PROOFS. The family `20_memory.md`: what a host write does, port by port (R65), and the statements about it. -/

namespace Sys2Proof.Machine

/-! ### The ports a write has an effect on -/

/-- The address of the `CTRL` port is the only one that names it. -/
theorem eq_ctrl_of_locate (a : Addr) (h : locate a = .ctrl) : a = Port.ctrl := by
  revert a; decide +kernel

/-- Only the five ports of R193 name the locations whose writes are refused while busy. -/
theorem refusedPort_of_locate (a : Addr)
    (h : locate a = .cmd ∨ locate a = .keyin ∨ locate a = .blkin ∨ locate a = .opa ∨ locate a = .opb) :
    RefusedPort a := by
  unfold RefusedPort; revert a; decide +kernel

/-- The reserved addresses of the map (R70): the two after the registers and the two gaps between the windows. -/
theorem locate_reserved (a : Addr) (h : a = 0x00E#10 ∨ a = 0x00F#10 ∨ (0x03A ≤ a.toNat ∧ a.toNat ≤ 0x0FF) ∨
    (0x1B0 ≤ a.toNat ∧ a.toNat ≤ 0x1FF)) : locate a = .reserved := by
  rcases h with rfl | rfl | ⟨hlo, hhi⟩ | ⟨hlo, hhi⟩
  · rfl
  · rfl
  · unfold locate
    rw [if_neg (by omega), if_neg (by omega), if_neg (by omega), if_neg (by omega), if_pos (by omega)]
  · unfold locate
    rw [if_neg (by omega), if_neg (by omega), if_neg (by omega), if_neg (by omega), if_neg (by omega),
      if_neg (by omega), if_pos (by omega)]

/-! ### What a write to a port does -/

/-- `OPA` takes the byte, unless the core is busy (R76). -/
theorem hostWrite_opa (v : Byte) (s : State) :
    hostWrite (Pins.write Port.opa v) s = unlessBusy Port.opa (fun t => t.setOpa v) s := rfl

/-- `OPB` takes the byte, unless the core is busy (R76). -/
theorem hostWrite_opb (v : Byte) (s : State) :
    hostWrite (Pins.write Port.opb v) s = unlessBusy Port.opb (fun t => t.setOpb v) s := rfl

/-- `CTRL` takes its two bits, busy or not (R77). -/
theorem hostWrite_ctrl (v : Byte) (s : State) : hostWrite (Pins.write Port.ctrl v) s = s.setCtrl v := rfl

/-- A write to a read-only, ROM or reserved address has no effect (R72). -/
theorem hostWrite_of_ignored (a : Addr) (v : Byte) (s : State) (hstatus : a ≠ Port.status) (hctrl : a ≠ Port.ctrl)
    (hport : ¬RefusedPort a) : hostWrite (Pins.write a v) s = s := by
  show writeLoc a v s (locate a) = s
  cases h : locate a with
  | status => exact absurd (eq_status_of_locate a h) hstatus
  | ctrl => exact absurd (eq_ctrl_of_locate a h) hctrl
  | cmd | keyin | blkin | opa | opb => exact absurd (refusedPort_of_locate a (by simp [h])) hport
  | _ => rfl

/-! ### The statements -/

/-- Settles O28: an idle core performs the write of the port, a busy one refuses it, except at `CTRL`. -/
theorem operandAndControlWrites : Obligations.OperandAndControlWrites := by
  refine ⟨fun s v hb => ⟨fun hp => ?_, fun hp => ?_, fun hp => ?_⟩, fun s v hb => ⟨?_, ?_, hostWrite_ctrl v s⟩⟩
  · rw [step_of_write s _ v hb hp (by simp), hostWrite_opa, unlessBusy_of_idle, State.setOpa]
    exact hb
  · rw [step_of_write s _ v hb hp (by simp), hostWrite_opb, unlessBusy_of_idle, State.setOpb]
    exact hb
  · rw [step_of_write s _ v hb hp (by simp), hostWrite_ctrl, State.setCtrl]
  · exact hostWrite_refused Port.opa v s (by simp [RefusedPort]) hb
  · exact hostWrite_refused Port.opb v s (by simp [RefusedPort]) hb

/-- Settles O31: an ignored write leaves the state, also of the step; a reserved address or write-only port reads 0x00. -/
theorem otherWritesAreIgnored : Obligations.OtherWritesAreIgnored := by
  refine ⟨fun s a v hstatus hctrl hport => ⟨hostWrite_of_ignored a v s hstatus hctrl hport, fun hb hp => ?_⟩,
    fun s a h => ?_⟩
  · have hcmd : locate a ≠ .cmd := fun h => hport (refusedPort_of_locate a (.inl h))
    rw [step_of_write s a v hb hp hcmd, hostWrite_of_ignored a v _ hstatus hctrl hport]
  · rcases h with rfl | rfl | rfl | h
    · rfl
    · rfl
    · rfl
    · rw [busRead, locate_reserved a h, readLoc]

end Sys2Proof.Machine
end

section
/-! PROOFS. The family `30_encoding.md`: what the decoder answers, format by format (R101, R106), which bytes it rejects
(R104), and what a rejected byte does (R192). -/

namespace Sys2Proof

/-! ### The fields of a command byte (R100) -/

theorem opField_toNat (c : Byte) : (opField c).toNat = c.toNat / 16 := by
  have := c.isLt
  simp only [opField, BitVec.extractLsb'_toNat, Nat.shiftRight_eq_div_pow]
  omega

theorem argField_toNat (c : Byte) : (argField c).toNat = c.toNat % 16 := by
  simp [argField, BitVec.extractLsb'_toNat]

/-! ### The format of each opcode (R101, R102) -/

/-- The opcodes up to `0xA` have format N. -/
theorem decode_formatN {c : Byte} (h : c.toNat / 16 ≤ 0xA) : ∃ i, decode c = decodeN i (argField c) := by
  rw [← opField_toNat] at h
  unfold decode
  generalize (opField c).toNat = op at h ⊢
  match op, h with
  | 0, _ | 1, _ | 2, _ | 3, _ | 4, _ | 5, _ | 6, _ | 7, _ | 8, _ | 9, _ | 10, _ => exact ⟨_, rfl⟩
  | n + 11, h => omega

theorem decode_formatR {c : Byte} (h : c.toNat / 16 = 0xB) : decode c = decodeR (argField c) := by
  rw [← opField_toNat] at h
  simp only [decode, h]

theorem decode_formatM {c : Byte} (h : c.toNat / 16 = 0xC) : decode c = decodeM (argField c) := by
  rw [← opField_toNat] at h
  simp only [decode, h]

theorem decode_reservedOpcode {c : Byte} (h : 0xD ≤ c.toNat / 16) : decode c = .reserved .reservedOpcode := by
  rw [← opField_toNat] at h
  obtain ⟨n, hn⟩ := Nat.exists_eq_add_of_le' h
  simp only [decode, hn]

/-! ### Which arguments a format rejects (R101, R103) -/

theorem decodeN_reserved_iff (i : Instr) (arg : BitVec 4) :
    (∃ why, decodeN i arg = .reserved why) ↔ arg.toNat ≠ 0 := by
  have hzero : arg.toNat = 0 ↔ arg = 0#4 := BitVec.toNat_inj (y := 0#4)
  rw [ne_eq, hzero]
  by_cases h : arg = 0#4 <;> simp [decodeN, h]

theorem decodeR_reserved_iff (arg : BitVec 4) : (∃ why, decodeR arg = .reserved why) ↔ 10 < arg.toNat := by
  rw [← Nat.not_le]
  by_cases h : arg.toNat ≤ 10 <;> simp [decodeR, h]

theorem decodeM_reserved_iff (arg : BitVec 4) : (∃ why, decodeM arg = .reserved why) ↔ 3 < arg.toNat := by
  rw [← Nat.not_le]
  by_cases h : arg.toNat ≤ 3 <;> simp [decodeM, h]

/-- The rejected bytes are the four groups of R104. -/
theorem decode_reserved_iff (c : Byte) : (∃ why, decode c = .reserved why) ↔
    (c.toNat / 16 ≤ 0xA ∧ c.toNat % 16 ≠ 0) ∨ (0xBB ≤ c.toNat ∧ c.toNat ≤ 0xBF) ∨
    (0xC4 ≤ c.toNat ∧ c.toNat ≤ 0xCF) ∨ 0xD0 ≤ c.toNat := by
  obtain hN | hR | hM | hD :
      c.toNat / 16 ≤ 0xA ∨ c.toNat / 16 = 0xB ∨ c.toNat / 16 = 0xC ∨ 0xD ≤ c.toNat / 16 := by omega
  · obtain ⟨i, hi⟩ := decode_formatN hN
    rw [hi, decodeN_reserved_iff, argField_toNat]
    omega
  · rw [decode_formatR hR, decodeR_reserved_iff, argField_toNat]
    omega
  · rw [decode_formatM hM, decodeM_reserved_iff, argField_toNat]
    omega
  · exact iff_of_true ⟨_, decode_reservedOpcode hD⟩ (by omega)

end Sys2Proof

namespace Sys2Proof.Machine

/-! ### What a reserved byte does (R180, R192) -/

theorem command_of_reserved {c : Byte} {why : Reserved} (h : decode c = .reserved why) (s : State) :
    command c s = .next (recorded 0x02#8 c s) := by
  simp only [command, h, raiseError_eq_recorded, causeCode]

/-- A write to `CMD` of an idle core is `command` of its byte, with that cycle's input used up. -/
theorem step_of_cmdWrite {s : State} {c : Byte} (hb : s.busy = false) (hp : s.pins = Pins.write Port.cmd c) :
    step s = command c { s with host := s.host.tail } := by
  rw [step_of_command s (by rw [hp]; rfl) hb (by rw [hp]; rfl), hp, sample_write, Pins.write]

/-- Settles O3: the groups by the format of the opcode, their size by counting, the step by `command_of_reserved`. -/
theorem reservedBytesRaiseErrCmd : Obligations.ReservedBytesRaiseErrCmd :=
  ⟨decode_reserved_iff, rfl, fun _ _ _ hb hp hd => by
    rw [step_of_cmdWrite hb hp, command_of_reserved hd]⟩

end Sys2Proof.Machine
end

section
/-! PROOFS. The family `40_gf_multiplier.md`: the three phases of a busy command in the words of the statements (R180,
R181), the corner cases of the product (R121), and the statement about GFMUL (R123). -/

namespace Sys2Proof.Machine

/-! ### The phases of a busy command, in the words of the statements -/

/-- A second command byte is refused, whatever it is (R180, R193). -/
theorem cmdRefusedWhileBusy : CmdRefusedWhileBusy := fun s v hb =>
  hostWrite_refused Port.cmd v s (.inl rfl) hb

theorem countsDown_of_isBusyCommand {i : Instr} (hw : WellFormed i) (hi : isBusyCommand i = true) : CountsDown i := by
  intro s hb hc
  rw [exec_eq_busyCommand i s hw hi, busyCommand_of_busy _ _ _ hb, busyCycle_more _ _ hc]

/-- An idle core whose lengths suit the command accepts it, with a latency of at least 1 (R180, R235). -/
theorem exec_accepted {i : Instr} (hw : WellFormed i) (hi : isBusyCommand i = true) {s : State} (hb : s.busy = false)
    (hkey : keyBad i s = false) (hblk : blkBad i s = false) :
    ∃ n, 1 ≤ n ∧ exec i s = .next (accepted (encode i) n s) := by
  refine ⟨latency (encode i) s, latency_pos s _, ?_⟩
  rw [exec_eq_busyCommand i s hw hi, busyCommand_of_idle _ _ _ hb, issue_of_ready _ _ hkey hblk, accept_eq, accepted]

/-! ### The loop of the product (R120, R121) -/

@[simp] theorem xtime_zero : xtime 0x00#8 = 0x00#8 := rfl

/-- Zero stays zero when doubled, so the loop adds nothing. -/
@[simp] theorem gfMulLoop_zero_left (b : Byte) (n i : Nat) (acc : Byte) : gfMulLoop b n i 0x00#8 acc = acc := by
  induction n generalizing i with
  | zero => rfl
  | succ n ih => simp [gfMulLoop, ih]

/-- The loop adds nothing from a bit on above which the multiplier has no bit set. -/
theorem gfMulLoop_of_clear {b : Byte} {i : Nat} (h : ∀ j, i ≤ j → b.getLsbD j = false) (n : Nat) (a acc : Byte) :
    gfMulLoop b n i a acc = acc := by
  induction n generalizing i a with
  | zero => rfl
  | succ n ih =>
    rw [gfMulLoop, h i (Nat.le_refl i), if_neg Bool.false_ne_true]
    exact ih (fun j hj => h j (Nat.le_of_succ_le hj)) (xtime a)

@[simp] theorem gfMul_zero_left (v : Byte) : gfMul 0x00#8 v = 0x00#8 := gfMulLoop_zero_left v 8 0 _

@[simp] theorem gfMul_zero_right (v : Byte) : gfMul v 0x00#8 = 0x00#8 :=
  gfMulLoop_of_clear (fun _ _ => BitVec.getLsbD_zero) 8 v _

/-- Bit 0 of the multiplier adds `v` itself, and there is no other bit. -/
@[simp] theorem gfMul_one_right (v : Byte) : gfMul v 0x01#8 = v := by
  have hclear : ∀ j, 1 ≤ j → (0x01#8 : Byte).getLsbD j = false := fun j hj => by
    simp [Nat.one_le_iff_ne_zero.mp hj]
  calc gfMul v 0x01#8 = gfMulLoop 0x01#8 7 1 (xtime v) (0x00#8 ^^^ v) := rfl
    _ = 0x00#8 ^^^ v := gfMulLoop_of_clear hclear 7 _ _
    _ = v := BitVec.zero_xor

/-! ### The statement -/

/-- Settles O11: GFMUL is a busy command that needs no length, so its phases are the general ones; its completion part
sets `PROD`. -/
theorem gfmulMultiplies : Obligations.GfmulMultiplies :=
  ⟨rfl, cmdRefusedWhileBusy, countsDown_of_isBusyCommand trivial rfl,
    fun _ hb => exec_accepted (i := .gfmul) trivial rfl hb rfl rfl,
    fun s hb hc => exec_last .gfmul s trivial rfl hb hc,
    fun v => ⟨gfMul_zero_left v, gfMul_zero_right v, gfMul_one_right v⟩,
    rfl⟩

end Sys2Proof.Machine
end

section
/-! PROOFS. The family `41_key_schedule.md`: the words of the expanded key in the order of their index, the recurrence they
satisfy (R133), and the statement about EXPAND (R136). -/

namespace Sys2Proof.Machine

/-! ### The words of the expanded key, by index (R133) -/

/-- Word `i` of the expanded key once `n` words have been generated; the model lists those words newest first. -/
def keyWord (key : Block) (n i : Nat) : Word := (scheduleWords key n).reverse.getD i (Vector.replicate 4 0#8)

/-- One more generated word goes in front: the word 16 bytes earlier combined with the core of the previous word. -/
theorem scheduleWords_succ (key : Block) (n : Nat) :
    scheduleWords key (n + 1) =
      xorWord (keyWord key n n) (scheduleCore (n + 4) (keyWord key n (n + 3))) :: scheduleWords key n := by
  have hlen := scheduleWords_length key n
  match hws : scheduleWords key n, hlen with
  | w1 :: w2 :: w3 :: w4 :: older, hlen =>
    obtain rfl : older.length = n := by simpa using hlen
    simp [scheduleWords, keyWord, hws]

/-- In the order of their index, the words grow at the end. -/
theorem scheduleWords_succ_reverse (key : Block) (n : Nat) :
    (scheduleWords key (n + 1)).reverse = (scheduleWords key n).reverse ++
      [xorWord (keyWord key n n) (scheduleCore (n + 4) (keyWord key n (n + 3)))] := by
  rw [scheduleWords_succ, List.reverse_cons]

theorem scheduleWords_reverse_length (key : Block) (n : Nat) : (scheduleWords key n).reverse.length = n + 4 := by
  rw [List.length_reverse, scheduleWords_length]

theorem keyWord_succ_of_lt (key : Block) {n i : Nat} (h : i < n + 4) : keyWord key (n + 1) i = keyWord key n i := by
  have hi : i < (scheduleWords key n).reverse.length := by rwa [scheduleWords_reverse_length]
  simp only [keyWord, List.getD_eq_getElem?_getD, scheduleWords_succ_reverse, List.getElem?_append_left hi]

theorem keyWord_succ_newest (key : Block) (n : Nat) :
    keyWord key (n + 1) (n + 4) = xorWord (keyWord key n n) (scheduleCore (n + 4) (keyWord key n (n + 3))) := by
  rw [keyWord, List.getD_eq_getElem?_getD, scheduleWords_succ_reverse, ← scheduleWords_reverse_length key n,
    List.getElem?_concat_length, Option.getD_some]

/-- The first four words are the columns of the key, however many words follow. -/
theorem keyWord_eq_column (key : Block) (n : Nat) (c : Fin 4) : keyWord key n c = column key c := by
  induction n with
  | zero =>
    match c with
    | 0 | 1 | 2 | 3 => rfl
  | succ n ih => rw [keyWord_succ_of_lt key (by omega), ih]

/-- Every generated word satisfies the recurrence of R133. -/
theorem keyWord_recurrence (key : Block) {n i : Nat} (h : i < n) :
    keyWord key n (i + 4) = xorWord (keyWord key n i) (scheduleCore (i + 4) (keyWord key n (i + 3))) := by
  induction n with
  | zero => omega
  | succ n ih =>
    rw [keyWord_succ_of_lt key (i := i) (by omega), keyWord_succ_of_lt key (i := i + 3) (by omega)]
    obtain hlt | rfl : i < n ∨ i = n := by omega
    · rw [keyWord_succ_of_lt key (by omega), ih hlt]
    · exact keyWord_succ_newest key i

/-! ### The expanded key -/

theorem expandKey_getElem_keyWord (key : Block) (n : Nat) (h : n < 176) :
    (expandKey key)[n] = (keyWord key 40 (n / 4))[n % 4] := expandKey_getElem key n h

theorem scheduleWord_expandKey (key : Block) (i : Fin 44) : scheduleWord (expandKey key) i = keyWord key 40 i := by
  refine Vector.ext fun j hj => ?_
  have hdiv : (4 * i.val + j) / 4 = i.val := by omega
  have hmod : (4 * i.val + j) % 4 = j := by omega
  simp only [scheduleWord, Vector.getElem_ofFn, expandKey_getElem_keyWord, hdiv, hmod]

/-- The expanded key begins with the key itself (R133, R137). -/
theorem expandKey_getElem_of_lt_sixteen (key : Block) (i : Fin 16) : (expandKey key)[i.val] = key[i] := by
  have hi : 4 * (i.val / 4) + i.val % 4 = i.val := by omega
  have hw := keyWord_eq_column key 40 ⟨i.val / 4, by omega⟩
  simp only [expandKey_getElem_keyWord, hw, column_getElem, hi, Fin.getElem_fin]

/-- For a word of the schedule the round constant's index is in range, so the model's wrap-around does nothing. -/
theorem scheduleCore_eq (t : Word) {i : Nat} (h : i / 4 - 1 < 10) :
    scheduleCore i t = if i % 4 = 0 then addRcon (subWord (rotWord t)) ⟨i / 4 - 1, h⟩ else t := by
  have hk : Fin.ofNat 10 (i / 4 - 1) = ⟨i / 4 - 1, h⟩ := Fin.ext (Nat.mod_eq_of_lt h)
  rw [scheduleCore, hk]

/-! ### The refusal of a command that needs the key only (R191) -/

/-- An idle core without 16 key bytes refuses a command that needs the key and no block: `op` with `KEYBAD` (R191, R201). -/
theorem exec_refused_of_keyBad {i : Instr} (hw : WellFormed i) (hi : isBusyCommand i = true) {s : State}
    (hb : s.busy = false) (hkey : keyBad i s = true) (hblk : blkBad i s = false) :
    exec i s = .next (recorded 0x01#8 (lengthInfo (opField (encode i)) false true) s) := by
  rw [exec_eq_busyCommand i s hw hi, busyCommand_of_idle _ _ _ hb, issue_of_bad _ _ (.inl hkey), raiseError_eq_recorded,
    hkey, hblk, causeCode]

/-! ### The statements -/

/-- Settles O47: the first bytes are the columns of the key; every later word is `j + 4` for a generated word `j`, so it
satisfies the recurrence of `keyWord`. -/
theorem expandKeyRecurrence : Obligations.ExpandKeyRecurrence := by
  refine fun key => ⟨expandKey_getElem_of_lt_sixteen key, fun i h => ?_⟩
  obtain ⟨i, hi⟩ := i
  obtain ⟨j, rfl⟩ := Nat.exists_eq_add_of_le' h
  simp only [scheduleWord_expandKey, ← scheduleCore_eq _ (show (j + 4) / 4 - 1 < 10 by omega)]
  exact keyWord_recurrence key (by omega)

/-- Settles O12: EXPAND is a busy command that needs the key only, so its phases are the general ones; its completion part
is the expansion step. -/
theorem expandExpandsTheKey : Obligations.ExpandExpandsTheKey := by
  refine ⟨rfl, cmdRefusedWhileBusy, countsDown_of_isBusyCommand trivial rfl, fun s hb hkey => ?_, fun s hb hkey => ?_,
    fun s hb hc => ?_, by decide +kernel, by decide +kernel⟩
  · have hbad : keyBad .expand s = true := by simp [keyBad, needsKey, keyRdy, hkey]
    exact exec_refused_of_keyBad (i := .expand) trivial rfl hb hbad rfl
  · have hok : keyBad .expand s = false := by simp [keyBad, keyRdy, hkey]
    exact exec_accepted (i := .expand) trivial rfl hb hok rfl
  · rw [exec_last .expand s trivial rfl hb hc, completionPart, expand, State.setSchedule, State.finish]

end Sys2Proof.Machine
end

section
/-! PROOFS. The laws of the field product the matrices rest on (R120 to R122). The product is additive and commutes with
doubling in its first factor; commutativity and associativity follow from these two. -/

namespace Sys2Proof.Machine

/-- Doubling is a shift plus the reduction that the top bit asks for (R120). -/
theorem xtime_eq (a : Byte) : xtime a = a <<< 1 ^^^ (if a.getLsbD 7 then 0x1B#8 else 0x00#8) := by
  unfold xtime
  split
  · rfl
  · rw [BitVec.xor_zero]

theorem xtime_xor (a b : Byte) : xtime (a ^^^ b) = xtime a ^^^ xtime b := by
  have hreduce : ∀ p q : Bool, (if p ^^ q then 0x1B#8 else 0x00#8) =
      (if p then 0x1B#8 else 0x00#8) ^^^ (if q then 0x1B#8 else 0x00#8) := by decide
  rw [xtime_eq, xtime_eq, xtime_eq, BitVec.getLsbD_xor, hreduce, BitVec.shiftLeft_xor_distrib]
  ac_rfl

/-- A map that is additive and commutes with doubling passes through the loop of the product. -/
theorem map_gfMulLoop {f : Byte → Byte} (hadd : ∀ x y, f (x ^^^ y) = f x ^^^ f y)
    (hdbl : ∀ x, f (xtime x) = xtime (f x)) (b : Byte) (n i : Nat) (a acc : Byte) :
    f (gfMulLoop b n i a acc) = gfMulLoop b n i (f a) (f acc) := by
  induction n generalizing i a acc with
  | zero => rfl
  | succ n ih => rw [gfMulLoop, gfMulLoop, ih, hdbl, apply_ite f, hadd]

/-- Such a map passes through the product: it acts on the first factor. -/
theorem map_gfMul {f : Byte → Byte} (hadd : ∀ x y, f (x ^^^ y) = f x ^^^ f y)
    (hdbl : ∀ x, f (xtime x) = xtime (f x)) (a b : Byte) : f (gfMul a b) = gfMul (f a) b := by
  have hzero : f 0x00#8 = 0x00#8 := by simpa using hadd 0x00#8 0x00#8
  rw [gfMul, map_gfMulLoop hadd hdbl, hzero, gfMul]

theorem gfMul_xtime_left (a b : Byte) : gfMul (xtime a) b = xtime (gfMul a b) :=
  (map_gfMul xtime_xor (fun _ => rfl) a b).symm

theorem gfMulLoop_xor (b : Byte) (n i : Nat) (a a' acc acc' : Byte) :
    gfMulLoop b n i (a ^^^ a') (acc ^^^ acc') = gfMulLoop b n i a acc ^^^ gfMulLoop b n i a' acc' := by
  induction n generalizing i a a' acc acc' with
  | zero => rfl
  | succ n ih =>
    have hacc : (if b.getLsbD i then acc ^^^ acc' ^^^ (a ^^^ a') else acc ^^^ acc') =
        (if b.getLsbD i then acc ^^^ a else acc) ^^^ (if b.getLsbD i then acc' ^^^ a' else acc') := by
      split
      · ac_rfl
      · rfl
    rw [gfMulLoop, xtime_xor, hacc, ih, gfMulLoop, gfMulLoop]

theorem gfMul_xor_left (a a' b : Byte) : gfMul (a ^^^ a') b = gfMul a b ^^^ gfMul a' b :=
  gfMulLoop_xor b 8 0 a a' 0x00#8 0x00#8

/-- The second factors may be exchanged: multiplying by `c` is itself a map that passes through the product with `b`. -/
theorem gfMul_right_comm (a b c : Byte) : gfMul (gfMul a b) c = gfMul (gfMul a c) b :=
  map_gfMul (f := fun x => gfMul x c) (fun x y => gfMul_xor_left x y c) (fun x => gfMul_xtime_left x c) a b

/-- The bits of `b` pick the powers of x that sum to `b` (R121). -/
@[simp] theorem gfMul_one_left (b : Byte) : gfMul 0x01#8 b = b := by
  revert b; decide +kernel

theorem gfMul_comm (a b : Byte) : gfMul a b = gfMul b a := by
  simpa using gfMul_right_comm 0x01#8 a b

theorem gfMul_assoc (a b c : Byte) : gfMul (gfMul a b) c = gfMul a (gfMul b c) :=
  calc gfMul (gfMul a b) c = gfMul (gfMul b a) c := by rw [gfMul_comm a b]
    _ = gfMul (gfMul b c) a := gfMul_right_comm b a c
    _ = gfMul a (gfMul b c) := gfMul_comm _ _

theorem gfMul_xor_right (a b c : Byte) : gfMul a (b ^^^ c) = gfMul a b ^^^ gfMul a c := by
  rw [gfMul_comm, gfMul_xor_left, gfMul_comm b, gfMul_comm c]

end Sys2Proof.Machine
end

section
/-! PROOFS. The family `42_round_operations.md`: matrices over the field and the two mixing functions (R144, R145), the
other round functions (R140 to R143, R146), and the statements about the seven commands (R147 to R153). -/

namespace Sys2Proof.Machine

/-! ### Matrices over the field (R144, R145) -/

/-- The product of two matrices, given by their rows. -/
def matMul (n m : Fin 4 → Word) (i : Fin 4) : Word :=
  Vector.ofFn fun k : Fin 4 => scalarProduct (n i) (Vector.ofFn fun j : Fin 4 => (m j)[k])

/-- The rows of the identity matrix. -/
def idRow (i : Fin 4) : Word := Vector.ofFn fun k : Fin 4 => if i = k then 0x01#8 else 0x00#8

/-- Multiplying a column by one matrix and then by another multiplies it by their product. -/
theorem mulColumn_mulColumn (n m : Fin 4 → Word) (col : Word) :
    mulColumn n (mulColumn m col) = mulColumn (matMul n m) col := by
  refine Vector.ext fun i hi => ?_
  simp only [mulColumn_getElem, matMul, scalarProduct, Vector.getElem_ofFn, Fin.getElem_fin, gfMul_xor_left,
    gfMul_xor_right, gfMul_assoc, Fin.zero_eta, Fin.mk_one, Fin.reduceFinMk]
  ac_rfl

theorem mulColumn_eq (row : Fin 4 → Word) (col : Word) : mulColumn row col =
    #v[scalarProduct (row 0) col, scalarProduct (row 1) col, scalarProduct (row 2) col, scalarProduct (row 3) col] :=
  rfl

theorem mulColumn_idRow (col : Word) : mulColumn idRow col = col := by
  refine Vector.ext fun i hi => ?_
  match i, hi with
  | 0, _ | 1, _ | 2, _ | 3, _ => simp [idRow, scalarProduct]

/-- The inverse matrix times the forward one, entry by entry (R145). -/
theorem invMixRow_mixRow_entry : ∀ i k : Fin 4,
    scalarProduct (invMixRow i) (Vector.ofFn fun j : Fin 4 => (mixRow j)[k]) = if i = k then 0x01#8 else 0x00#8 := by
  decide +kernel

theorem matMul_invMixRow_mixRow : matMul invMixRow mixRow = idRow := by
  funext i; simp only [matMul, idRow, invMixRow_mixRow_entry]

theorem matMul_mixRow_invMixRow : matMul mixRow invMixRow = idRow := by
  have hrow : ∀ i : Fin 4, matMul mixRow invMixRow i = idRow i := by decide +kernel
  exact funext hrow

theorem invMixColumns_mixColumns (b : Block) : invMixColumns (mixColumns b) = b :=
  block_ext_columns fun c => by
    rw [column_invMixColumns, column_mixColumns, mulColumn_mulColumn, matMul_invMixRow_mixRow, mulColumn_idRow]

theorem mixColumns_invMixColumns (b : Block) : mixColumns (invMixColumns b) = b :=
  block_ext_columns fun c => by
    rw [column_mixColumns, column_invMixColumns, mulColumn_mulColumn, matMul_mixRow_invMixRow, mulColumn_idRow]

theorem mulColumn_mixRow (s : Word) : mulColumn mixRow s =
    #v[gfMul 2 s[0] ^^^ gfMul 3 s[1] ^^^ s[2] ^^^ s[3], s[0] ^^^ gfMul 2 s[1] ^^^ gfMul 3 s[2] ^^^ s[3],
      s[0] ^^^ s[1] ^^^ gfMul 2 s[2] ^^^ gfMul 3 s[3], gfMul 3 s[0] ^^^ s[1] ^^^ s[2] ^^^ gfMul 2 s[3]] := by
  simp [mulColumn_eq, scalarProduct, mixRow]

/-! ### The other round functions -/

theorem invSbox_sbox (v : Byte) : invSbox (sbox v) = v := by revert v; decide +kernel

theorem sbox_invSbox (v : Byte) : sbox (invSbox v) = v := by revert v; decide +kernel

theorem invSubBytes_subBytes (b : Block) : invSubBytes (subBytes b) = b :=
  Vector.ext fun n hn => by rw [invSubBytes_getElem, subBytes_getElem, invSbox_sbox]

theorem subBytes_invSubBytes (b : Block) : subBytes (invSubBytes b) = b :=
  Vector.ext fun n hn => by rw [subBytes_getElem, invSubBytes_getElem, sbox_invSbox]

theorem subBytes_eq_ofFn (b : Block) : subBytes b = Vector.ofFn fun i : Fin 16 => sbox b[i] :=
  Vector.ext fun n hn => by simp

theorem invSubBytes_eq_ofFn (b : Block) : invSubBytes b = Vector.ofFn fun i : Fin 16 => invSbox b[i] :=
  Vector.ext fun n hn => by simp

/-- Row `r` is rotated by `r`, so the bytes come from these indices (R142). -/
theorem shiftRows_eq (b : Block) : shiftRows b =
    #v[b[0], b[5], b[10], b[15], b[4], b[9], b[14], b[3], b[8], b[13], b[2], b[7], b[12], b[1], b[6], b[11]] := by
  refine Vector.ext fun n hn => ?_
  rw [shiftRows_getElem]
  match n, hn with
  | 0, _ | 1, _ | 2, _ | 3, _ | 4, _ | 5, _ | 6, _ | 7, _ | 8, _ | 9, _ | 10, _ | 11, _ | 12, _ | 13, _ | 14, _
  | 15, _ => rfl
  | n + 16, hn => omega

/-- The index list of the rotation the other way (R143). -/
theorem invShiftRows_eq (b : Block) : invShiftRows b =
    #v[b[0], b[13], b[10], b[7], b[4], b[1], b[14], b[11], b[8], b[5], b[2], b[15], b[12], b[9], b[6], b[3]] := by
  refine Vector.ext fun n hn => ?_
  rw [invShiftRows_getElem]
  match n, hn with
  | 0, _ | 1, _ | 2, _ | 3, _ | 4, _ | 5, _ | 6, _ | 7, _ | 8, _ | 9, _ | 10, _ | 11, _ | 12, _ | 13, _ | 14, _
  | 15, _ => rfl
  | n + 16, hn => omega

theorem invShiftRows_shiftRows (b : Block) : invShiftRows (shiftRows b) = b :=
  Vector.ext fun n hn => by
    simp only [invShiftRows_getElem, shiftRows_getElem]
    congr 1; omega

theorem shiftRows_invShiftRows (b : Block) : shiftRows (invShiftRows b) = b :=
  Vector.ext fun n hn => by
    simp only [invShiftRows_getElem, shiftRows_getElem]
    congr 1; omega

theorem shiftRows_four_times (b : Block) : shiftRows (shiftRows (shiftRows (shiftRows b))) = b :=
  Vector.ext fun n hn => by
    simp only [shiftRows_getElem]
    congr 1; omega

theorem addRoundKey_eq_ofFn (b : Block) (w : Schedule) (r : Fin 11) :
    addRoundKey b w r = Vector.ofFn fun i : Fin 16 => b[i] ^^^ w[16 * r.val + i.val] :=
  Vector.ext fun n hn => by simp

theorem addRoundKey_addRoundKey (b : Block) (w : Schedule) (r : Fin 11) :
    addRoundKey (addRoundKey b w r) w r = b :=
  Vector.ext fun n hn => by
    rw [addRoundKey_getElem, addRoundKey_getElem, BitVec.xor_assoc, BitVec.xor_self, BitVec.xor_zero]

/-- Round key 0 is the key itself (R153). -/
theorem addRoundKey_expandKey_zero (b key : Block) :
    addRoundKey b (expandKey key) 0 = Vector.ofFn fun i : Fin 16 => b[i] ^^^ key[i] := by
  rw [addRoundKey_eq_ofFn]
  refine congrArg Vector.ofFn (funext fun i => ?_)
  simp [expandKey_getElem_of_lt_sixteen]

/-! ### The phases of a command that needs the block -/

/-- A busy command that needs the block and not the key (R102). -/
structure NeedsBlockOnly (i : Instr) : Prop where
  wellFormed : WellFormed i
  busy : isBusyCommand i = true
  noKey : needsKey i = false
  block : needsBlock i = true

theorem NeedsBlockOnly.keyBad_eq {i : Instr} (h : NeedsBlockOnly i) (s : State) : keyBad i s = false := by
  rw [keyBad, h.noKey, Bool.false_and]

theorem NeedsBlockOnly.countsDown {i : Instr} (h : NeedsBlockOnly i) : CountsDown i :=
  countsDown_of_isBusyCommand h.wellFormed h.busy

/-- A length error carries the opcode and a flag for each length that is wrong (R191, R201). -/
theorem exec_refused_of_badLength {i : Instr} (hw : WellFormed i) (hi : isBusyCommand i = true) {s : State}
    (hb : s.busy = false) (hbad : keyBad i s = true ∨ blkBad i s = true) :
    exec i s = .next (recorded 0x01#8 (lengthInfo (opField (encode i)) (blkBad i s) (keyBad i s)) s) := by
  rw [exec_eq_busyCommand i s hw hi, busyCommand_of_idle _ _ _ hb, issue_of_bad _ _ hbad, raiseError_eq_recorded,
    causeCode]

theorem NeedsBlockOnly.refuses {i : Instr} (h : NeedsBlockOnly i) {s : State} (hb : s.busy = false)
    (hlen : s.blklen ≠ 16#5) :
    exec i s = .next (recorded 0x01#8 (lengthInfo (opField (encode i)) true false) s) := by
  have hbad : blkBad i s = true := by simp [blkBad, h.block, blkRdy, hlen]
  rw [exec_refused_of_badLength h.wellFormed h.busy hb (.inr hbad), hbad, h.keyBad_eq]

theorem NeedsBlockOnly.accepts {i : Instr} (h : NeedsBlockOnly i) {s : State} (hb : s.busy = false)
    (hlen : s.blklen = 16#5) : ∃ n, 1 ≤ n ∧ exec i s = .next (accepted (encode i) n s) :=
  exec_accepted h.wellFormed h.busy hb (h.keyBad_eq s) (by simp [blkBad, blkRdy, hlen])

/-- The last busy cycle replaces `BLK` and completes (R181). -/
theorem NeedsBlockOnly.completes {i : Instr} (h : NeedsBlockOnly i) {s : State} {b : Block} (hb : s.busy = true)
    (hc : s.seqCnt = 1) (hpart : completionPart i s = s.setBlk b) :
    exec i s = .next { s with blk := b, blkHi := 16, busy := false, done := true } := by
  rw [exec_last i s h.wellFormed h.busy hb hc, hpart, State.setBlk, State.finish]

theorem needsBlockOnly_subb : NeedsBlockOnly .subb := ⟨trivial, rfl, rfl, rfl⟩
theorem needsBlockOnly_isubb : NeedsBlockOnly .isubb := ⟨trivial, rfl, rfl, rfl⟩
theorem needsBlockOnly_shr : NeedsBlockOnly .shr := ⟨trivial, rfl, rfl, rfl⟩
theorem needsBlockOnly_ishr : NeedsBlockOnly .ishr := ⟨trivial, rfl, rfl, rfl⟩
theorem needsBlockOnly_mixc : NeedsBlockOnly .mixc := ⟨trivial, rfl, rfl, rfl⟩
theorem needsBlockOnly_imixc : NeedsBlockOnly .imixc := ⟨trivial, rfl, rfl, rfl⟩

/-! ### The phases of ARK (R153) -/

theorem encode_ark : ∀ r : BitVec 4, encode (.ark r) = 0xB0#8 + r.setWidth 8 := by decide

theorem encode_ark_opcode : ∀ r : BitVec 4, encode (.ark r) &&& 0xF0#8 = 0xB0#8 := by decide

theorem decode_ark : ∀ r : BitVec 4, r.toNat ≤ 10 → decode (0xB0#8 + r.setWidth 8) = .command (.ark r) := by decide

/-- The information byte of a length error of a command that needs key and block, in the words of the statements. -/
theorem lengthInfo_eq_lengthErrorInfo {i : Instr} (hkey : needsKey i = true) (hblk : needsBlock i = true) (s : State) :
    lengthInfo (opField (encode i)) (blkBad i s) (keyBad i s) = lengthErrorInfo (encode i &&& 0xF0#8) s := by
  simp [lengthInfo_opField, lengthErrorInfo, blkBad, keyBad, hkey, hblk, blkRdy, keyRdy]

theorem completionPart_ark {r : BitVec 4} (h : r.toNat ≤ 10) (s : State) :
    completionPart (.ark r) s = (expandedIfNeeded s).setBlk (Vector.ofFn fun i : Fin 16 =>
      s.blk[i] ^^^ (scheduleInUse s)[16 * r.toNat + i.val]) := by
  simp only [completionPart, roundIndex_of_le h, completeArk, ensureSchedule_eq_expandedIfNeeded, addRoundKey_eq_ofFn,
    expandedIfNeeded]

/-! ### The statements -/

/-- Settles O45: the columns are mixed by the inverse matrix, whose product with the forward one is the identity. -/
theorem invMixColumnsCancels : Obligations.InvMixColumnsCancels :=
  ⟨fun b c => column_invMixColumns b c, invMixRow_mixRow_entry,
    fun b => ⟨invMixColumns_mixColumns b, mixColumns_invMixColumns b⟩, by decide +kernel, by decide +kernel⟩

/-- Settles O18: a column is mixed by the forward matrix, and its coefficients 1 multiply by nothing. -/
theorem mixColumnsBytes : Obligations.MixColumnsBytes :=
  ⟨fun b c => by rw [column_mixColumns, mulColumn_mixRow], by decide +kernel, by decide +kernel⟩

/-- Settles O46: each byte is combined with the same byte twice, which cancels; counting bytes show that no other round
function undoes itself. -/
theorem addRoundKeyIsItsOwnInverse : Obligations.AddRoundKeyIsItsOwnInverse := by
  have hother : ∀ f ∈ [subBytes, invSubBytes, shiftRows, invShiftRows, mixColumns, invMixColumns],
      f (f (hexBlock 0x000102030405060708090a0b0c0d0e0f)) ≠ hexBlock 0x000102030405060708090a0b0c0d0e0f := by
    decide +kernel
  exact ⟨fun b w r => ⟨fun i => addRoundKey_getElem b w r i i.isLt, addRoundKey_addRoundKey b w r⟩,
    fun f hf => ⟨_, hother f hf⟩, by decide +kernel⟩

/-- Settles O15: the phases of a command that needs the block only, with the byte-wise substitution at completion; the
two tables undo each other. -/
theorem subbAndIsubbSubstitute : Obligations.SubbAndIsubbSubstitute := by
  refine ⟨rfl, rfl, cmdRefusedWhileBusy, needsBlockOnly_subb.countsDown, needsBlockOnly_isubb.countsDown,
    fun s hb hlen => ⟨needsBlockOnly_subb.refuses hb hlen, needsBlockOnly_isubb.refuses hb hlen⟩,
    fun s hb hlen => ⟨needsBlockOnly_subb.accepts hb hlen, needsBlockOnly_isubb.accepts hb hlen⟩,
    fun s hb hc => ?_, fun b => ⟨invSubBytes_subBytes b, subBytes_invSubBytes b⟩, by decide +kernel, by decide +kernel⟩
  rw [← subBytes_eq_ofFn, ← invSubBytes_eq_ofFn]
  exact ⟨needsBlockOnly_subb.completes hb hc rfl, needsBlockOnly_isubb.completes hb hc rfl⟩

/-- Settles O16: the phases of a command that needs the block only, with the permutation of `BLK` at completion. -/
theorem shrAndIshrRotateRows : Obligations.ShrAndIshrRotateRows := by
  refine ⟨rfl, rfl, cmdRefusedWhileBusy, needsBlockOnly_shr.countsDown, needsBlockOnly_ishr.countsDown,
    fun s hb hlen => ⟨needsBlockOnly_shr.refuses hb hlen, needsBlockOnly_ishr.refuses hb hlen⟩,
    fun s hb hlen => ⟨needsBlockOnly_shr.accepts hb hlen, needsBlockOnly_ishr.accepts hb hlen⟩,
    fun s hb hc => ?_, fun b => ⟨shiftRows_four_times b, invShiftRows_shiftRows b, shiftRows_invShiftRows b⟩,
    by decide +kernel, by decide +kernel⟩
  rw [← shiftRows_eq, ← invShiftRows_eq]
  exact ⟨needsBlockOnly_shr.completes hb hc rfl, needsBlockOnly_ishr.completes hb hc rfl⟩

/-- Settles O17: the phases of a command that needs the block only, with the mixing of `BLK` at completion. -/
theorem mixcAndImixcMixColumns : Obligations.MixcAndImixcMixColumns :=
  ⟨rfl, rfl, cmdRefusedWhileBusy, needsBlockOnly_mixc.countsDown, needsBlockOnly_imixc.countsDown,
    fun _ hb hlen => ⟨needsBlockOnly_mixc.refuses hb hlen, needsBlockOnly_imixc.refuses hb hlen⟩,
    fun _ hb hlen => ⟨needsBlockOnly_mixc.accepts hb hlen, needsBlockOnly_imixc.accepts hb hlen⟩,
    fun _ hb hc => ⟨needsBlockOnly_mixc.completes hb hc rfl, needsBlockOnly_imixc.completes hb hc rfl⟩,
    fun b => ⟨invMixColumns_mixColumns b, mixColumns_invMixColumns b⟩,
    by decide +kernel, by decide +kernel, by decide +kernel, by decide +kernel⟩

/-- Settles O19: ARK is a busy command that needs key and block; its opcode, without the round index, goes into the
length error, and its completion part is the expansion followed by AddRoundKey. -/
theorem arkAddsTheRoundKey : Obligations.ArkAddsTheRoundKey := by
  refine ⟨fun r hr => ⟨decode_ark r hr, countsDown_of_isBusyCommand (i := .ark r) hr rfl⟩, cmdRefusedWhileBusy,
    fun s r hr hb hlen => ?_, fun s r hr hb hkey hblk => ?_, fun s r hr hb hc => ?_, fun s c hlo hhi => ?_,
    addRoundKey_addRoundKey, addRoundKey_expandKey_zero, ?_⟩
  · have hbad : keyBad (.ark r) s = true ∨ blkBad (.ark r) s = true := by
      simpa [keyBad, needsKey, keyRdy, blkBad, needsBlock, blkRdy] using hlen
    rw [exec_refused_of_badLength (i := .ark r) hr rfl hb hbad, lengthInfo_eq_lengthErrorInfo rfl rfl,
      encode_ark_opcode]
  · rw [← encode_ark]
    exact exec_accepted (i := .ark r) hr rfl hb (by simp [keyBad, keyRdy, hkey]) (by simp [blkBad, blkRdy, hblk])
  · rw [exec_last (.ark r) s hr rfl hb hc, completionPart_ark hr, State.setBlk, State.finish]
  · obtain ⟨why, hwhy⟩ := (decode_reserved_iff c).2 (.inr (.inl ⟨hlo, hhi⟩))
    exact command_of_reserved hwhy s
  · rw [addRoundKey_expandKey_zero]
    decide +kernel

end Sys2Proof.Machine
end

section
/-! PROOFS. The family `43_block_engine.md`: the inverse cipher undoes the cipher round by round (R160, R161), the
phases of a command that needs both key and block, and the statements about ENC and DEC (R162, R163). -/

namespace Sys2Proof.Machine

/-! ### The inverse cipher undoes the cipher (R160, R161) -/

/-- A fold is undone by folding the inverse steps over the same list from its end. -/
theorem foldl_reverse_foldl {α β : Type} {f g : β → α → β} (h : ∀ b a, g (f b a) a = b) (l : List α) (b : β) :
    l.reverse.foldl g (l.foldl f b) = b := by
  induction l generalizing b with
  | nil => rfl
  | cons a l ih =>
    rw [List.reverse_cons, List.foldl_append, List.foldl_cons (f := f), ih]
    exact h b a

/-- A round of the inverse applies the inverses of the four round functions in reverse order. -/
theorem invCipherRound_cipherRound (w : Schedule) (b : Block) (r : Fin 11) :
    invCipherRound w (cipherRound w b r) r = b := by
  rw [invCipherRound, cipherRound, addRoundKey_addRoundKey, invMixColumns_mixColumns, invShiftRows_shiftRows,
    invSubBytes_subBytes]

/-- Rounds 9 to 1 of the inverse undo rounds 1 to 9. -/
theorem invCipherRounds_cipherRounds (w : Schedule) (b : Block) :
    [9, 8, 7, 6, 5, 4, 3, 2, 1].foldl (invCipherRound w) ([1, 2, 3, 4, 5, 6, 7, 8, 9].foldl (cipherRound w) b) = b :=
  foldl_reverse_foldl (invCipherRound_cipherRound w) [1, 2, 3, 4, 5, 6, 7, 8, 9] b

/-- DEC's function undoes ENC's, for every block and every schedule (R162). -/
theorem invCipher_cipher (b : Block) (w : Schedule) : invCipher (cipher b w) w = b := by
  simp only [invCipher, cipher, addRoundKey_addRoundKey, invShiftRows_shiftRows, invSubBytes_subBytes,
    invCipherRounds_cipherRounds]

/-- The known answer of the source (R162). -/
theorem cipher_knownAnswer :
    cipher (hexBlock 0x00112233445566778899aabbccddeeff) (expandKey (hexBlock 0x000102030405060708090a0b0c0d0e0f)) =
      hexBlock 0x69c4e0d86a7b0430d8cdb78070b4c55a := by
  decide +kernel

/-! ### The phases of a command that needs key and block -/

/-- The schedule in use is that of the key where `KSVALID = 1` means what R27 says. -/
theorem scheduleInUse_eq_expandKey {s : State} (h : s.ksvalid = true → s.w = expandKey s.key) :
    scheduleInUse s = expandKey s.key := by
  rw [scheduleInUse]
  split
  case isTrue hks => exact h hks
  case isFalse => rfl

/-- A busy command that needs both the key and the block (R102). -/
structure NeedsKeyAndBlock (i : Instr) : Prop where
  wellFormed : WellFormed i
  busy : isBusyCommand i = true
  key : needsKey i = true
  block : needsBlock i = true

theorem NeedsKeyAndBlock.countsDown {i : Instr} (h : NeedsKeyAndBlock i) : CountsDown i :=
  countsDown_of_isBusyCommand h.wellFormed h.busy

theorem NeedsKeyAndBlock.refuses {i : Instr} (h : NeedsKeyAndBlock i) {s : State} (hb : s.busy = false)
    (hlen : s.keylen ≠ 16#5 ∨ s.blklen ≠ 16#5) :
    exec i s = .next (recorded 0x01#8 (lengthErrorInfo (encode i &&& 0xF0#8) s) s) := by
  have hbad : keyBad i s = true ∨ blkBad i s = true := by
    simpa [keyBad, h.key, keyRdy, blkBad, h.block, blkRdy] using hlen
  rw [exec_refused_of_badLength h.wellFormed h.busy hb hbad, lengthInfo_eq_lengthErrorInfo h.key h.block]

theorem NeedsKeyAndBlock.accepts {i : Instr} (h : NeedsKeyAndBlock i) {s : State} (hb : s.busy = false)
    (hkey : s.keylen = 16#5) (hblk : s.blklen = 16#5) : ∃ n, 1 ≤ n ∧ exec i s = .next (accepted (encode i) n s) :=
  exec_accepted h.wellFormed h.busy hb (by simp [keyBad, keyRdy, hkey]) (by simp [blkBad, blkRdy, hblk])

/-- The last busy cycle expands the key if needed, replaces `BLK` and completes (R135, R181). -/
theorem NeedsKeyAndBlock.completes {i : Instr} (h : NeedsKeyAndBlock i) {s : State} {b : Block} (hb : s.busy = true)
    (hc : s.seqCnt = 1) (hpart : completionPart i s = (expandedIfNeeded s).setBlk b) :
    exec i s = .next { expandedIfNeeded s with blk := b, blkHi := 16, busy := false, done := true } := by
  rw [exec_last i s h.wellFormed h.busy hb hc, hpart, State.setBlk, State.finish]

theorem needsKeyAndBlock_enc : NeedsKeyAndBlock .enc := ⟨trivial, rfl, rfl, rfl⟩
theorem needsKeyAndBlock_dec : NeedsKeyAndBlock .dec := ⟨trivial, rfl, rfl, rfl⟩

theorem completionPart_enc (s : State) :
    completionPart .enc s = (expandedIfNeeded s).setBlk (cipher s.blk (scheduleInUse s)) := by
  rw [completionPart, completeEnc, ensureSchedule_eq_expandedIfNeeded, expandedIfNeeded]

theorem completionPart_dec (s : State) :
    completionPart .dec s = (expandedIfNeeded s).setBlk (invCipher s.blk (scheduleInUse s)) := by
  rw [completionPart, completeDec, ensureSchedule_eq_expandedIfNeeded, expandedIfNeeded]

/-! ### The statements -/

/-- Settles O13: the phases of a command that needs key and block, with the cipher at completion; the inverse cipher
undoes it round by round. -/
theorem encEncrypts : Obligations.EncEncrypts :=
  ⟨rfl, cmdRefusedWhileBusy, needsKeyAndBlock_enc.countsDown, fun _ hb hlen => needsKeyAndBlock_enc.refuses hb hlen,
    fun _ hb hkey hblk => needsKeyAndBlock_enc.accepts hb hkey hblk,
    fun s hb hc => needsKeyAndBlock_enc.completes hb hc (completionPart_enc s),
    fun _ => scheduleInUse_eq_expandKey, invCipher_cipher, cipher_knownAnswer⟩

/-- Settles O14: the phases of a command that needs key and block, with the inverse cipher at completion; its example is
the one of ENC read backwards. -/
theorem decDecrypts : Obligations.DecDecrypts := by
  refine ⟨rfl, cmdRefusedWhileBusy, needsKeyAndBlock_dec.countsDown,
    fun _ hb hlen => needsKeyAndBlock_dec.refuses hb hlen,
    fun _ hb hkey hblk => needsKeyAndBlock_dec.accepts hb hkey hblk,
    fun s hb hc => needsKeyAndBlock_dec.completes hb hc (completionPart_dec s),
    fun _ => scheduleInUse_eq_expandKey, ?_⟩
  rw [← cipher_knownAnswer, invCipher_cipher]

end Sys2Proof.Machine
end

section
/-! PROOFS. The family `44_control_commands.md`: what NOP and CLR do to an idle core (R182, R183), which cycles can lower a
length counter, and the statements about the two commands. -/

namespace Sys2Proof

/-! ### The decoder answers well-formed commands only (R103, R106) -/

theorem wellFormed_of_decodeN {i j : Instr} {arg : BitVec 4} (hi : WellFormed i) (h : decodeN i arg = .command j) :
    WellFormed j := by
  unfold decodeN at h
  split at h
  case isTrue => cases h; exact hi
  case isFalse => cases h

theorem wellFormed_of_decodeR {i : Instr} {arg : BitVec 4} (h : decodeR arg = .command i) : WellFormed i := by
  unfold decodeR at h
  split at h
  case isTrue hle => cases h; exact hle
  case isFalse => cases h

theorem wellFormed_of_decodeM {i : Instr} {arg : BitVec 4} (h : decodeM arg = .command i) : WellFormed i := by
  unfold decodeM at h
  split at h <;> cases h
  exact trivial

/-- Only ARK can be ill-formed, and format R checks its round index; the last case is that of the reserved opcodes. -/
theorem wellFormed_of_decode {c : Byte} {i : Instr} (h : decode c = .command i) : WellFormed i := by
  unfold decode at h
  split at h
  case h_12 => exact wellFormed_of_decodeR h
  case h_13 => exact wellFormed_of_decodeM h
  case h_14 => cases h
  all_goals exact wellFormed_of_decodeN (by trivial) h

end Sys2Proof

namespace Sys2Proof.Machine

/-! ### NOP and CLR on an idle core -/

theorem exec_nop_of_idle {s : State} (hb : s.busy = false) : exec .nop s = .next s :=
  congrArg _ (unlessBusy_of_idle s Port.cmd id hb)

theorem clearLengths_eq (b k : Bool) (s : State) :
    clearLengths b k s = { s with keylen := if k then 0#5 else s.keylen, ksvalid := if k then false else s.ksvalid,
                                  blklen := if b then 0#5 else s.blklen } := by
  cases b <;> cases k <;> rfl

theorem exec_clr_of_idle (b k : Bool) {s : State} (hb : s.busy = false) :
    exec (.clr b k) s = .next (clearLengths b k s) :=
  congrArg _ (unlessBusy_of_idle s Port.cmd (clearLengths b k) hb)

/-! ### What lowers no length counter -/

/-- Neither length counter is lower in `t` than in `s`. -/
def NoLengthFalls (s t : State) : Prop := s.keylen.toNat ≤ t.keylen.toNat ∧ s.blklen.toNat ≤ t.blklen.toNat

theorem NoLengthFalls.of_eq {s t : State} (hkey : t.keylen = s.keylen) (hblk : t.blklen = s.blklen) :
    NoLengthFalls s t := ⟨hkey ▸ Nat.le_refl _, hblk ▸ Nat.le_refl _⟩

theorem NoLengthFalls.trans {s t u : State} (h : NoLengthFalls s t) (h' : NoLengthFalls t u) : NoLengthFalls s u :=
  ⟨Nat.le_trans h.1 h'.1, Nat.le_trans h.2 h'.2⟩

theorem SameData.noLengthFalls {s t : State} (h : SameData s t) : NoLengthFalls s t := by
  obtain ⟨-, hkey, -, hblk, -⟩ := h
  exact .of_eq hkey hblk

theorem noLengthFalls_sample (p : Pins) (s : State) : NoLengthFalls s (sample p s) := by
  obtain ⟨-, -, -, hdata, -⟩ := sample_keeps p s
  exact hdata.noLengthFalls

theorem noLengthFalls_raiseError (c : Cause) (x : Byte) (s : State) : NoLengthFalls s (raiseError c x s) := by
  rw [raiseError_eq]; exact .of_eq rfl rfl

/-- A stream port counts up or, at 31, stays (R74, R75). -/
theorem le_incLen (l : Len) : l.toNat ≤ (incLen l).toNat := by
  have := l.isLt
  rw [incLen_toNat]; omega

/-- No host write lowers a counter: a busy core keeps its data path, an idle one counts up at `KEYIN` and `BLKIN` (R65). -/
theorem noLengthFalls_hostWrite (p : Pins) (s : State) : NoLengthFalls s (hostWrite p s) := by
  cases hb : s.busy with
  | true =>
    obtain ⟨-, -, -, hdata⟩ := hostWrite_keeps p s hb
    exact hdata.noLengthFalls
  | false =>
    rcases hostWrite_idle_cases p s hb with h | h | h | h | h | h | h <;> rw [h]
    · exact .of_eq rfl rfl
    · rw [acknowledge_eq]; exact .of_eq rfl rfl
    · exact .of_eq rfl rfl
    · exact ⟨le_incLen _, Nat.le_refl _⟩
    · exact ⟨Nat.le_refl _, le_incLen _⟩
    · exact .of_eq rfl rfl
    · exact .of_eq rfl rfl

/-- The completion part of a command leaves both counters alone (R181). -/
theorem completionPart_lengths (i : Instr) (s : State) :
    (completionPart i s).keylen = s.keylen ∧ (completionPart i s).blklen = s.blklen := by
  cases i with
  | ark r =>
    simp only [completionPart]
    split <;> simp [completeArk, ensureSchedule_eq_expandedIfNeeded, expandedIfNeeded]
  | _ => simp [completionPart, completeEnc, completeDec, ensureSchedule_eq_expandedIfNeeded, expandedIfNeeded, expand]

/-- A busy command lowers no counter, in any of its phases (R180, R181). -/
theorem noLengthFalls_busyCommand (i : Instr) (s : State) :
    NoLengthFalls s (busyCommand i (completionPart i) s) := by
  rcases busyCommand_cases s i (completionPart i) with
    ⟨-, -, h⟩ | ⟨-, -, h⟩ | ⟨-, -, h⟩ | ⟨-, -, -, h⟩ <;> rw [h]
  · exact .of_eq rfl rfl
  · obtain ⟨hkey, hblk⟩ := completionPart_lengths i s
    exact .of_eq hkey hblk
  · exact noLengthFalls_raiseError _ _ s
  · exact .of_eq rfl rfl

/-- On an idle core a command lowers no counter or it is CLR. -/
theorem exec_idle_noLengthFalls_or_clr {i : Instr} {s t : State} (hw : WellFormed i) (hb : s.busy = false)
    (h : exec i s = .next t) : NoLengthFalls s t ∨ ∃ b k, i = .clr b k ∧ t = clearLengths b k s := by
  rcases exec_next_cases i s t hw h with ⟨-, rfl⟩ | ⟨b, k, rfl, rfl⟩ | ⟨-, rfl⟩
  · rw [unlessBusy_of_idle _ _ _ hb]; exact .inl (.of_eq rfl rfl)
  · exact .inr ⟨b, k, rfl, unlessBusy_of_idle _ _ _ hb⟩
  · exact .inl (noLengthFalls_busyCommand i s)

/-- Without reset a cycle lowers no counter or it issues CLR to an idle core (R183). -/
theorem step_noLengthFalls_or_clr {s t : State} (h : step s = .next t) (hr : s.pins.rst = false) :
    NoLengthFalls s t ∨ (s.busy = false ∧ s.pins.writesCmd = true ∧
      ∃ b k, decode s.pins.wdata = .command (.clr b k) ∧ t = clearLengths b k (sample s.pins s)) := by
  have hsample := noLengthFalls_sample s.pins s
  rcases step_next_cases h with ⟨hr', -⟩ | ⟨-, -, i, hd, hi, he⟩ | ⟨-, hb, hc, i, hd, he⟩ | ⟨-, -, -, -, -, rfl⟩ |
    ⟨-, -, -, rfl⟩
  · rw [hr] at hr'; cases hr'
  · rw [exec_eq_busyCommand i _ (wellFormed_of_decode hd) hi] at he
    cases he
    exact .inl ((hsample.trans (noLengthFalls_hostWrite _ _)).trans (noLengthFalls_busyCommand i _))
  · rcases exec_idle_noLengthFalls_or_clr (wellFormed_of_decode hd) (by rw [sample_busy, hb]) he with
      hlen | ⟨b, k, rfl, ht⟩
    · exact .inl (hsample.trans hlen)
    · exact .inr ⟨hb, hc, b, k, hd, ht⟩
  · exact .inl (hsample.trans (noLengthFalls_raiseError _ _ _))
  · exact .inl (hsample.trans (noLengthFalls_hostWrite _ _))

/-- A counter falls only in a cycle that issues CLR with that counter's mask bit to an idle core: CLR without the bit
keeps the counter (R183). -/
theorem length_falls_only_by_clr {s t : State} (h : step s = .next t) (hr : s.pins.rst = false) :
    (t.keylen.toNat < s.keylen.toNat →
      s.busy = false ∧ s.pins.writesCmd = true ∧ ∃ b, decode s.pins.wdata = .command (.clr b true)) ∧
    (t.blklen.toNat < s.blklen.toNat →
      s.busy = false ∧ s.pins.writesCmd = true ∧ ∃ k, decode s.pins.wdata = .command (.clr true k)) := by
  rcases step_noLengthFalls_or_clr h hr with ⟨hkey, hblk⟩ | ⟨hb, hc, b, k, hd, rfl⟩
  · exact ⟨fun hlt => absurd hlt (Nat.not_lt.2 hkey), fun hlt => absurd hlt (Nat.not_lt.2 hblk)⟩
  · obtain ⟨hkey, hblk⟩ := noLengthFalls_sample s.pins s
    rw [clearLengths_eq]
    refine ⟨fun hlt => ⟨hb, hc, b, ?_⟩, fun hlt => ⟨hb, hc, k, ?_⟩⟩
    · cases k with
      | true => exact hd
      | false => exact absurd hlt (Nat.not_lt.2 hkey)
    · cases b with
      | true => exact hd
      | false => exact absurd hlt (Nat.not_lt.2 hblk)

/-! ### The statements -/

/-- Settles O10: the effect of CLR by its equation, `0xC4` to `0xCF` by the decoder, the falling counters
by `length_falls_only_by_clr`. -/
theorem clrClearsLengths : Obligations.ClrClearsLengths := by
  refine ⟨rfl, rfl, rfl, rfl, cmdRefusedWhileBusy, fun s b k hb => ?_, fun s c hlo hhi => ?_,
    fun s t => length_falls_only_by_clr⟩
  · rw [exec_clr_of_idle b k hb, clearLengths_eq]
  · obtain ⟨why, hwhy⟩ := (decode_reserved_iff c).2 (.inr (.inr (.inl ⟨hlo, hhi⟩)))
    exact command_of_reserved hwhy s

/-- Settles O9: NOP on an idle core answers its state; the bytes after `0x00` have format N and a non-zero argument. -/
theorem nopDoesNothing : Obligations.NopDoesNothing := by
  refine ⟨rfl, cmdRefusedWhileBusy, fun s hb => exec_nop_of_idle hb, fun s c hpos hlt => ?_⟩
  obtain ⟨why, hwhy⟩ := (decode_reserved_iff c).2 (.inl ⟨by omega, by omega⟩)
  exact command_of_reserved hwhy s

end Sys2Proof.Machine
end

section
/-! PROOFS. The family `60_exceptions.md`: which lengths a command is refused for (R191), what a cycle's write adds to a
busy cycle (R193), what the acknowledgement does (R203, R204), and the statements about them. -/

namespace Sys2Proof.Machine

/-! ### The refusal of a wrong length (R191) -/

/-- Only busy commands need a length (R102). -/
theorem isBusyCommand_of_needs {i : Instr} (h : needsKey i = true ∨ needsBlock i = true) : isBusyCommand i = true := by
  cases i with
  | nop | clr => exact h.elim id id
  | _ => rfl

theorem keyBad_iff (i : Instr) (s : State) : keyBad i s = true ↔ needsKey i = true ∧ s.keylen ≠ 16#5 := by
  simp [keyBad, keyRdy]

theorem blkBad_iff (i : Instr) (s : State) : blkBad i s = true ↔ needsBlock i = true ∧ s.blklen ≠ 16#5 := by
  simp [blkBad, blkRdy]

/-! ### A host write to a busy core (R62) -/

/-- A write's effect depends on its address and byte only (R65). -/
theorem hostWrite_of_isWrite {p : Pins} (h : p.isWrite = true) (s : State) :
    hostWrite p s = hostWrite (Pins.write p.addr p.wdata) s := by
  rw [hostWrite, if_pos h]; rfl

/-- A busy core takes the write, whatever its port, and then performs the running command's busy cycle (R62, R181). -/
theorem step_of_write_of_running {s : State} {i : Instr} {a : Addr} {v : Byte} (hb : s.busy = true)
    (hp : s.pins = Pins.write a v) (hd : decode s.seqOp = .command i) (hi : isBusyCommand i = true) :
    step s = exec i (hostWrite (Pins.write a v) { s with host := s.host.tail }) := by
  obtain ⟨-, hop, -⟩ := hostWrite_keeps (Pins.write a v) { s with host := s.host.tail } hb
  rw [step_of_busy s (by rw [hp]; rfl) hb, hp, sample_write, sequencerPart_of_running _ i (by rw [hop]; exact hd) hi]

/-- What is not a write to one of the five ports does nothing, acknowledges or sets `CTRL`, busy or not (R65, R72). -/
theorem hostWrite_cases_of_not_refused {p : Pins} (h : ¬(p.isWrite = true ∧ RefusedPort p.addr)) (s : State) :
    hostWrite p s = s ∨ hostWrite p s = acknowledge p.wdata s ∨ hostWrite p s = s.setCtrl p.wdata := by
  cases hw : p.isWrite with
  | false => exact .inl (hostWrite_of_not_write p s hw)
  | true =>
    rw [hostWrite_of_isWrite hw]
    by_cases hstatus : p.addr = Port.status
    · rw [hstatus]; exact .inr (.inl rfl)
    by_cases hctrl : p.addr = Port.ctrl
    · rw [hctrl]; exact .inr (.inr (hostWrite_ctrl _ s))
    · exact .inl (hostWrite_of_ignored _ _ s hstatus hctrl fun ha => h ⟨hw, ha⟩)

/-! ### The acknowledgement (R203) -/

/-- `STATUS` takes the acknowledgement, busy or not (R203). -/
theorem hostWrite_status (v : Byte) (s : State) : hostWrite (Pins.write Port.status v) s = acknowledge v s := rfl

/-- An error that is there after the acknowledgement was there before: bit 2 was 0 and the registers are kept (R203). -/
theorem errors_of_acknowledge_err {v : Byte} {s : State} (h : (acknowledge v s).err = true) :
    s.err = true ∧ (acknowledge v s).errcode = s.errcode ∧ (acknowledge v s).errinfo = s.errinfo := by
  rw [acknowledge_eq] at h ⊢
  obtain ⟨herr, hbit⟩ : s.err = true ∧ v.getLsbD 2 = false := by simpa using h
  rw [hbit]; exact ⟨herr, rfl, rfl⟩

/-- The completion part of a command records and clears no error (R181). -/
theorem completionPart_err (i : Instr) (s : State) : (completionPart i s).err = s.err := by
  cases i with
  | ark r =>
    simp only [completionPart]
    split <;> simp [completeArk, ensureSchedule_eq_expandedIfNeeded, expandedIfNeeded]
  | _ => simp [completionPart, completeEnc, completeDec, ensureSchedule_eq_expandedIfNeeded, expandedIfNeeded, expand]

/-! ### The statements -/

/-- Settles O20: a command with a wrong length is a busy command, whose issue records the opcode and the two flags. -/
theorem wrongLengthIsRefused : Obligations.WrongLengthIsRefused := by
  intro i s hw hb hlen
  have hi : isBusyCommand i = true := isBusyCommand_of_needs (hlen.imp And.left And.left)
  rw [← keyBad_iff, ← blkBad_iff] at hlen
  rw [exec_refused_of_badLength hw hi hb hlen, lengthInfo_opField]
  simp only [keyBad_iff, blkBad_iff]

/-- Settles O32: the write of the cycle is refused before the busy cycle; of the other accesses only the acknowledgement
touches the error registers, and it records none. -/
theorem busyWritesAreRefused : Obligations.BusyWritesAreRefused := by
  refine ⟨fun s i a v hb hd hi ha hp => ?_, fun s p _ hport herr => ?_⟩
  · rw [step_of_write_of_running hb hp hd hi, hostWrite_refused _ _ _ ha (by exact hb)]
  · rcases hostWrite_cases_of_not_refused hport s with h | h | h <;> rw [h] at herr ⊢
    · exact ⟨herr, rfl, rfl⟩
    · exact errors_of_acknowledge_err herr
    · exact ⟨herr, rfl, rfl⟩

/-- Settles O29: the write is the acknowledgement; alone on an idle core, before the busy cycle on a busy one. -/
theorem statusWriteAcknowledges : Obligations.StatusWriteAcknowledges := by
  refine fun s v => ⟨?_, fun hb hp => step_of_write s _ v hb hp (by simp), fun i hb hp hd hi =>
    step_of_write_of_running hb hp hd hi⟩
  rw [hostWrite_status, acknowledge_eq]
  cases v.getLsbD 1 <;> cases v.getLsbD 2 <;> simp

/-- Settles O30: the last busy cycle comes after the acknowledgement; it sets `DONE` and leaves `ERR` alone. -/
theorem doneSetWinsOverClear : Obligations.DoneSetWinsOverClear := by
  intro s i v hb hc hd hi hp
  obtain ⟨hb', -, hc', -⟩ := hostWrite_keeps (Pins.write Port.status v) { s with host := s.host.tail } hb
  refine ⟨_, (step_of_write_of_running hb hp hd hi).trans
    (exec_last i _ (wellFormed_of_decode hd) hi hb' (hc'.trans hc)), rfl, rfl, ?_⟩
  rw [State.finish_err, completionPart_err, hostWrite_status, acknowledge_eq]
  cases v.getLsbD 2 <;> simp

end Sys2Proof.Machine
end

section
/-! PROOFS. The family `70_reset_and_hazards.md`: which locations a busy core hides from the host (R231), what an edge with
`rst = 1` leaves (R220), and the statements about them. -/

namespace Sys2Proof.Machine

/-! ### Reads of a busy core (R231) -/

/-- The data windows of R231, which the running command may be writing: `BLK`, `W` and `PROD`. -/
def Loc.isDataWindow : Loc → Bool
  | .prod | .blk _ | .w _ => true
  | _ => false

/-- The addresses of the data windows in the map of R70. -/
theorem isDataWindow_locate_iff (a : Addr) : (locate a).isDataWindow = true ↔
    a = 0x00B#10 ∨ (0x020 ≤ a.toNat ∧ a.toNat < 0x030) ∨ (0x100 ≤ a.toNat ∧ a.toNat < 0x1B0) := by
  revert a; decide +kernel

theorem readLoc_of_busy_of_isDataWindow {s : State} (hb : s.busy = true) {l : Loc} (h : l.isDataWindow = true) :
    readLoc s l = .any8 := by
  cases l with
  | prod | blk | w => exact if_pos hb
  | _ => cases h

/-- Outside the data windows only `STATUS` shows whether the core is busy (R64). -/
theorem readLoc_withBusy {l : Loc} (hwindow : ¬l.isDataWindow = true) (hstatus : l ≠ .status) (s : State) (b : Bool) :
    readLoc { s with busy := b } l = readLoc s l := by
  cases l with
  | prod | blk | w => exact absurd rfl hwindow
  | status => exact absurd rfl hstatus
  | _ => rfl

/-- The flags of `STATUS` in the words of the statements (R28). -/
theorem busRead_status (s : State) : busRead s Port.status = .byte (0#2 ++ BitVec.ofBool (s.blklen == 16#5) ++
    BitVec.ofBool (s.keylen == 16#5) ++ BitVec.ofBool s.ksvalid ++ BitVec.ofBool s.err ++ BitVec.ofBool s.done ++
    BitVec.ofBool s.busy) := rfl

/-! ### Windows of which nothing has been written (R41) -/

theorem busRead_key_of_unwritten {s : State} (h : s.keyHi = 0) (i : Fin 16) :
    busRead s (BitVec.ofNat 10 (0x010 + i.val)) = .any8 := by
  simp [busRead, locate_key, readLoc, ifWritten, h]

theorem busRead_blk_of_unwritten {s : State} (h : s.blkHi = 0) (i : Fin 16) :
    busRead s (BitVec.ofNat 10 (0x020 + i.val)) = .any8 := by
  simp [busRead, locate_blk, readLoc, ifIdle, ifWritten, h]

theorem busRead_w_of_unwritten {s : State} (h : s.wDef = false) (i : Fin 176) :
    busRead s (BitVec.ofNat 10 (0x100 + i.val)) = .any8 := by
  simp [busRead, locate_w, readLoc, ifIdle, ifWritten, h]

/-! ### The host's record of a cycle (R64) -/

/-- A read is recorded with the value it returns, and nothing else is (log 5). -/
theorem sample_reads (s : State) :
    (sample s.pins s).reads = if s.pins.isRead then rdata s s.pins :: s.reads else s.reads := by
  cases hr : s.pins.isRead with
  | false => simp [sample, hr]
  | true =>
    obtain ⟨hsel, hwr⟩ : s.pins.sel = true ∧ s.pins.wr = false := by simpa [Pins.isRead] using hr
    rw [sample_of_read s hsel hwr]; rfl

/-! ### The statements -/

/-- Settles O36: the three cases are the data windows, the locations that ignore `BUSY`, and `STATUS`. -/
theorem readsWhileBusy : Obligations.ReadsWhileBusy := by
  intro s a hb
  rw [← isDataWindow_locate_iff]
  refine ⟨fun h => readLoc_of_busy_of_isDataWindow hb h, fun hwindow hstatus => ?_, ?_⟩
  · exact (readLoc_withBusy hwindow (fun h => hstatus (eq_status_of_locate a h)) s false).symm
  · rw [busRead_status, hb]; rfl

/-- Settles O37: the edge leaves the reset registers and marks, and of the cycle only what sampling its pins recorded. -/
theorem resetEdgeResets : Obligations.ResetEdgeResets := by
  intro s hr
  obtain ⟨-, -, -, -, hhost, -⟩ := sample_keeps s.pins s
  refine ⟨resetEdge (sample s.pins s), step_of_rst s hr, rfl, rfl, rfl, rfl, rfl, rfl, rfl, rfl, rfl, rfl, rfl, rfl, rfl,
    hhost, sample_reads s, fun i => ⟨?_, ?_⟩, fun i => ?_⟩
  · exact busRead_key_of_unwritten rfl i
  · exact busRead_blk_of_unwritten rfl i
  · exact busRead_w_of_unwritten rfl i

end Sys2Proof.Machine
end

section
/-! PROOFS. The encoder against the decoder, in both directions (R101, R102, R106), and the access word of a bus access
(R108). -/

namespace Sys2Proof

/-! ### Decoding an encoded command (R101, R102, R106) -/

theorem decode_encode_clr : ∀ b k : Bool, decode (encode (.clr b k)) = .command (.clr b k) := by decide

theorem decode_encode {i : Instr} (hw : WellFormed i) : decode (encode i) = .command i := by
  cases i with
  | ark r => rw [Machine.encode_ark]; exact Machine.decode_ark r hw
  | clr b k => exact decode_encode_clr b k
  | _ => rfl

/-! ### The encoding of a decoded byte (R101, R103) -/

/-- A command byte is its two fields (R100). -/
theorem opField_append_argField (c : Byte) : opField c ++ argField c = c := by
  revert c; decide +kernel

theorem opField_eq_of_toNat {c : Byte} {op : BitVec 4} (h : (opField c).toNat = op.toNat) : op ++ argField c = c := by
  rw [← BitVec.eq_of_toNat_eq h, opField_append_argField]

theorem encode_of_decodeN {op arg : BitVec 4} {i j : Instr} (hi : encode i = op ++ 0#4)
    (h : decodeN i arg = .command j) : encode j = op ++ arg := by
  unfold decodeN at h
  split at h
  case isTrue harg => cases h; rw [hi, harg]
  case isFalse => cases h

theorem encode_of_decodeR {arg : BitVec 4} {i : Instr} (h : decodeR arg = .command i) : encode i = 0xB#4 ++ arg := by
  unfold decodeR at h
  split at h <;> cases h
  rfl

/-- The two mask bits are all of an argument up to 3. -/
theorem encode_clr_of_le : ∀ arg : BitVec 4, arg.toNat ≤ 3 →
    encode (.clr (arg.getLsbD 1) (arg.getLsbD 0)) = 0xC#4 ++ arg := by decide

theorem encode_of_decodeM {arg : BitVec 4} {i : Instr} (h : decodeM arg = .command i) : encode i = 0xC#4 ++ arg := by
  unfold decodeM at h
  split at h
  case isTrue hle => cases h; exact encode_clr_of_le arg hle
  case isFalse => cases h

/-- Each opcode's format puts the argument back behind the opcode; the last case is that of the reserved opcodes. -/
theorem encode_of_decode {c : Byte} {i : Instr} (h : decode c = .command i) : encode i = c := by
  unfold decode at h
  split at h
  case h_12 hop => rw [encode_of_decodeR h, opField_eq_of_toNat hop]
  case h_13 hop => rw [encode_of_decodeM h, opField_eq_of_toNat hop]
  case h_14 => cases h
  all_goals
    rename_i hop
    rw [encode_of_decodeN rfl h, opField_eq_of_toNat hop]

/-! ### The statements -/

/-- Settles O1: the operand fields of ARK and CLR are read back, every other byte is a constant of the map. -/
theorem decodeOfEncodeIsTheCommand : Obligations.DecodeOfEncodeIsTheCommand := fun _ => decode_encode

/-- Settles O2: format by format, the decoder answers the command whose fields the byte holds. -/
theorem decodedByteIsTheEncoding : Obligations.DecodedByteIsTheEncoding :=
  fun _ _ h => ⟨wellFormed_of_decode h, encode_of_decode h⟩

/-- Settles O4: the fourteen bytes are literals, which the decoder evaluates. -/
theorem tableBytesDecode : Obligations.TableBytesDecode := by
  unfold Obligations.TableBytesDecode; decide

end Sys2Proof

namespace Sys2Proof.Machine

/-! ### The access word (R108) -/

/-- The data field of an access word: a read has none. -/
theorem accessWord_eq (p : Pins) (h : p.wr = false → p.wdata = 0x00#8) :
    accessWord p = BitVec.ofBool p.wr ++ p.addr ++ p.wdata := by
  unfold accessWord
  cases hw : p.wr with
  | true => rfl
  | false => rw [h hw]; rfl

/-- Settles O5: the three fields of the word are read back from where they were put. -/
theorem accessWordRoundTrip : Obligations.AccessWordRoundTrip := by
  intro p hrst hsel hread
  obtain ⟨rst, sel, wr, addr, wdata⟩ := p
  obtain rfl : rst = false := hrst
  obtain rfl : sel = true := hsel
  have hwr : (BitVec.ofBool wr ++ addr ++ wdata).getLsbD 18 = wr := by
    simp only [BitVec.getLsbD_append, BitVec.getLsbD_ofBool]; rfl
  have haddr : (BitVec.ofBool wr ++ addr ++ wdata).extractLsb' 8 10 = addr := by
    rw [BitVec.extractLsb'_append_eq_of_le (by decide), BitVec.extractLsb'_append_eq_right]
  have hdata : (BitVec.ofBool wr ++ addr ++ wdata).extractLsb' 0 8 = wdata := BitVec.extractLsb'_append_eq_right
  rw [accessWord_eq _ hread, ofAccessWord, hwr, haddr, hdata]

end Sys2Proof.Machine
end

section
/-! PROOFS. The functions as a whole: the constant tables (R32, R35), the laws of the field product (R122), and the
cipher as the inverse of the inverse cipher (R164). -/

namespace Sys2Proof.Machine

/-! ### Inverses in the field (R122) -/

/-- The power of `a` whose exponent is 2 to the `n`. -/
def gfPowTwo (a : Byte) : Nat → Byte
  | 0 => a
  | n + 1 => gfMul (gfPowTwo a n) (gfPowTwo a n)

/-- The inverse of `a` in the field: its power 254, which is 2 + 4 + ... + 128. -/
def gfInv (a : Byte) : Byte := ([1, 2, 3, 4, 5, 6, 7].map (gfPowTwo a)).foldl gfMul 0x01#8

theorem gfMul_gfInv : ∀ a : Byte, a ≠ 0x00#8 → gfMul a (gfInv a) = 0x01#8 := by decide +kernel

/-- A field has no zero divisors: multiplying by the inverse of `a` would make `b` zero. -/
theorem gfMul_ne_zero {a b : Byte} (ha : a ≠ 0x00#8) (hb : b ≠ 0x00#8) : gfMul a b ≠ 0x00#8 := fun h =>
  hb <| calc b = gfMul 0x01#8 b := (gfMul_one_left b).symm
    _ = gfMul (gfMul a (gfInv a)) b := by rw [gfMul_gfInv a ha]
    _ = gfMul (gfMul a b) (gfInv a) := gfMul_right_comm _ _ _
    _ = 0x00#8 := by rw [h, gfMul_zero_left]

/-- Multiplying by `0x02` is doubling: `0x02` is the double of the identity. -/
theorem gfMul_two_right (a : Byte) : gfMul a 0x02#8 = xtime a :=
  calc gfMul a 0x02#8 = gfMul (xtime 0x01#8) a := gfMul_comm _ _
    _ = xtime a := by rw [gfMul_xtime_left, gfMul_one_left]

/-! ### The cipher undoes the inverse cipher (R164) -/

theorem cipherRound_invCipherRound (w : Schedule) (b : Block) (r : Fin 11) :
    cipherRound w (invCipherRound w b r) r = b := by
  rw [invCipherRound, cipherRound, subBytes_invSubBytes, shiftRows_invShiftRows, mixColumns_invMixColumns,
    addRoundKey_addRoundKey]

/-- Rounds 1 to 9 undo rounds 9 to 1 of the inverse. -/
theorem cipherRounds_invCipherRounds (w : Schedule) (b : Block) :
    [1, 2, 3, 4, 5, 6, 7, 8, 9].foldl (cipherRound w) ([9, 8, 7, 6, 5, 4, 3, 2, 1].foldl (invCipherRound w) b) = b :=
  foldl_reverse_foldl (cipherRound_invCipherRound w) [9, 8, 7, 6, 5, 4, 3, 2, 1] b

theorem cipher_invCipher (b : Block) (w : Schedule) : cipher (invCipher b w) w = b := by
  simp only [invCipher, cipher, addRoundKey_addRoundKey, cipherRounds_invCipherRounds, subBytes_invSubBytes,
    shiftRows_invShiftRows]

/-! ### The statements -/

/-- Settles O43: the tables undo each other byte by byte, and the ten round constants are literals. -/
theorem constantTables : Obligations.ConstantTables :=
  ⟨fun v => ⟨invSbox_sbox v, sbox_invSbox v⟩, rfl, by decide⟩

/-- Settles O44: the laws of the loop, and for the zero divisors the inverse of every byte but zero. -/
theorem gfMulLaws : Obligations.GfMulLaws :=
  ⟨fun a => ⟨gfMul_zero_right a, gfMul_zero_left a, gfMul_one_right a, gfMul_one_left a, gfMul_two_right a⟩,
    gfMul_comm, fun _ _ => gfMul_ne_zero, gfMul_xor_right, gfMul_assoc⟩

/-- Settles O48: each cipher undoes the other round by round, whatever the round keys are. -/
theorem invCipherUndoesCipher : Obligations.InvCipherUndoesCipher :=
  fun b w => ⟨invCipher_cipher b w, cipher_invCipher b w⟩

end Sys2Proof.Machine
end

section
/-! PROOFS. What each command leaves unchanged (R40): the completion parts register by register, the frame of `exec`, and
the bytes of the address map the host sees unchanged (R70). -/

namespace Sys2Proof.Machine

/-! ### The completion parts (R123, R134, R136, R147 to R153, R162, R163) -/

theorem completeArk_eq (k : Fin 11) (s : State) :
    completeArk k s = (expandedIfNeeded s).setBlk (addRoundKey s.blk (scheduleInUse s) k) := by
  rw [completeArk, ensureSchedule_eq_expandedIfNeeded, expandedIfNeeded]

/-- The five forms of a completion part: it replaces one of the registers, and the commands that read `W` expand the key
first if needed. -/
inductive CompletionForm (i : Instr) : (State → State) → Prop
  | nothing : CompletionForm i fun s => s
  | keyAndBlock (hkey : needsKey i = true) (hblk : needsBlock i = true) (f : Block → Schedule → Block) :
      CompletionForm i fun s => (expandedIfNeeded s).setBlk (f s.blk (scheduleInUse s))
  | schedule (hkey : needsKey i = true) (f : Block → Schedule) (hf : f = expandKey) :
      CompletionForm i fun s => s.setSchedule (f s.key)
  | prod (hi : i = .gfmul) (f : Byte → Byte → Byte) : CompletionForm i fun s => s.setProd (f s.opa s.opb)
  | blk (hblk : needsBlock i = true) (f : Block → Block) : CompletionForm i fun s => s.setBlk (f s.blk)

theorem completionForm_ark (r : BitVec 4) : CompletionForm (.ark r) (completionPart (.ark r)) := by
  cases hk : roundIndex r with
  | none =>
    have he : completionPart (.ark r) = fun s => s := funext fun s => by simp only [completionPart, hk]
    rw [he]; exact .nothing
  | some k =>
    have he : completionPart (.ark r) = fun s =>
        (expandedIfNeeded s).setBlk (addRoundKey s.blk (scheduleInUse s) k) :=
      funext fun s => by simp only [completionPart, hk, completeArk_eq]
    rw [he]; exact .keyAndBlock rfl rfl fun b w => addRoundKey b w k

theorem completionForm (i : Instr) : CompletionForm i (completionPart i) := by
  cases i with
  | nop | clr => exact .nothing
  | gfmul => exact .prod rfl gfMul
  | expand => exact .schedule rfl expandKey rfl
  | enc => rw [funext completionPart_enc]; exact .keyAndBlock rfl rfl cipher
  | dec => rw [funext completionPart_dec]; exact .keyAndBlock rfl rfl invCipher
  | ark r => exact completionForm_ark r
  | subb => exact .blk rfl subBytes
  | isubb => exact .blk rfl invSubBytes
  | shr => exact .blk rfl shiftRows
  | ishr => exact .blk rfl invShiftRows
  | mixc => exact .blk rfl mixColumns
  | imixc => exact .blk rfl invMixColumns

/-- A completion part writes `BLK`, `W`, `KSVALID`, `PROD` and the marks of `BLK` and `W` at most. -/
theorem completionPart_eq (i : Instr) (s : State) : ∃ b bhi x v xd p, completionPart i s =
    { s with blk := b, blkHi := bhi, w := x, ksvalid := v, wDef := xd, prod := p } := by
  have h := completionForm i
  generalize completionPart i = f at h ⊢
  cases h <;> exact ⟨_, _, _, _, _, _, rfl⟩

/-- The automatic expansion keeps the schedule, or it is the key's afterwards (R135). -/
theorem expandedIfNeeded_schedule_cases (s : State) :
    ((expandedIfNeeded s).w = s.w ∧ (expandedIfNeeded s).ksvalid = s.ksvalid ∧ (expandedIfNeeded s).wDef = s.wDef) ∨
    ((expandedIfNeeded s).w = expandKey s.key ∧ (expandedIfNeeded s).ksvalid = true ∧
      (expandedIfNeeded s).wDef = true) := by
  cases h : s.ksvalid <;> simp [expandedIfNeeded, scheduleInUse, h]

/-- The schedule and its flags are kept, or the command needs the key and they are those of its expansion (R134, R135). -/
theorem completionPart_schedule_cases (i : Instr) (s : State) :
    ((completionPart i s).w = s.w ∧ (completionPart i s).ksvalid = s.ksvalid ∧ (completionPart i s).wDef = s.wDef) ∨
    (needsKey i = true ∧ (completionPart i s).w = expandKey s.key ∧ (completionPart i s).ksvalid = true ∧
      (completionPart i s).wDef = true) := by
  have h := completionForm i
  generalize completionPart i = f at h ⊢
  cases h with
  | keyAndBlock hkey hblk f => exact (expandedIfNeeded_schedule_cases s).imp_right (And.intro hkey)
  | schedule hkey f hf => exact .inr ⟨hkey, congrFun hf s.key, rfl, rfl⟩
  | _ => exact .inl ⟨rfl, rfl, rfl⟩

/-- `BLK` and its mark are kept, or the command needs the block and writes all of it (R155). -/
theorem completionPart_blk_cases (i : Instr) (s : State) :
    ((completionPart i s).blk = s.blk ∧ (completionPart i s).blkHi = s.blkHi) ∨
    (needsBlock i = true ∧ (completionPart i s).blkHi = 16) := by
  have h := completionForm i
  generalize completionPart i = f at h ⊢
  cases h with
  | keyAndBlock hkey hblk f => exact .inr ⟨hblk, rfl⟩
  | blk hblk f => exact .inr ⟨hblk, rfl⟩
  | _ => exact .inl ⟨rfl, rfl⟩

theorem completionPart_prod {i : Instr} (hi : i ≠ .gfmul) (s : State) : (completionPart i s).prod = s.prod := by
  have h := completionForm i
  generalize completionPart i = f at h ⊢
  cases h with
  | prod hi' f => exact absurd hi' hi
  | _ => rfl

/-! ### The frame of a command (R40) -/

/-- Only the commands that need the key write `W` (R40, R102). -/
theorem needsKey_eq_false {i : Instr} (h : i ∉ [Instr.enc, .dec, .expand]) (hark : ∀ r, i ≠ .ark r) :
    needsKey i = false := by
  cases i with
  | enc | dec | expand => simp at h
  | ark r => exact absurd rfl (hark r)
  | _ => rfl

/-- Only the commands that need the block write it (R40, R102). -/
theorem needsBlock_eq_false {i : Instr} (h : i ∉ [Instr.enc, .dec, .subb, .isubb, .shr, .ishr, .mixc, .imixc])
    (hark : ∀ r, i ≠ .ark r) : needsBlock i = false := by
  cases i with
  | nop | clr | expand | gfmul => rfl
  | ark r => exact absurd rfl (hark r)
  | _ => simp at h

/-- Command `i` may lead from `s` to `t` by R40: the registers it does not write are those of `s`. -/
def WithinWriteSet (i : Instr) (s t : State) : Prop :=
  t.key = s.key ∧ t.opa = s.opa ∧ t.opb = s.opb ∧ t.die = s.die ∧ t.eie = s.eie ∧ t.keyHi = s.keyHi ∧
  t.host = s.host ∧ t.reads = s.reads ∧
  ((∀ b, i ≠ .clr b true) → t.keylen = s.keylen) ∧ ((∀ k, i ≠ .clr true k) → t.blklen = s.blklen) ∧
  (i ≠ .gfmul → t.prod = s.prod) ∧
  (i ∉ [.enc, .dec, .expand] → (∀ r, i ≠ .ark r) → t.w = s.w ∧ t.wDef = s.wDef ∧
    ((∀ b, i ≠ .clr b true) → t.ksvalid = s.ksvalid)) ∧
  (i ∉ [.enc, .dec, .subb, .isubb, .shr, .ishr, .mixc, .imixc] → (∀ r, i ≠ .ark r) →
    t.blk = s.blk ∧ t.blkHi = s.blkHi) ∧
  ((s.busy = true ∧ isBusyCommand i = true) ∨ (keyBad i s = false ∧ blkBad i s = false ∧ s.busy = false) →
    t.err = s.err ∧ t.errcode = s.errcode ∧ t.errinfo = s.errinfo)

/-- Every command may write `BUSY`, `DONE`, the sequencer and the draw count. -/
theorem withinWriteSet_sequencer (i : Instr) (s : State) (busy done : Bool) (op : Byte) (cnt draws : Nat) :
    WithinWriteSet i s { s with busy := busy, done := done, seqOp := op, seqCnt := cnt, draws := draws } :=
  ⟨rfl, rfl, rfl, rfl, rfl, rfl, rfl, rfl, fun _ => rfl, fun _ => rfl, fun _ => rfl, fun _ _ => ⟨rfl, rfl, fun _ => rfl⟩,
    fun _ _ => ⟨rfl, rfl⟩, fun _ => ⟨rfl, rfl, rfl⟩⟩

/-- A refused command writes the error registers only (R200). -/
theorem withinWriteSet_raiseError {i : Instr} {s : State}
    (hrefused : ¬((s.busy = true ∧ isBusyCommand i = true) ∨ (keyBad i s = false ∧ blkBad i s = false ∧ s.busy = false)))
    (c : Cause) (x : Byte) : WithinWriteSet i s (raiseError c x s) := by
  rw [raiseError_eq]
  exact ⟨rfl, rfl, rfl, rfl, rfl, rfl, rfl, rfl, fun _ => rfl, fun _ => rfl, fun _ => rfl,
    fun _ _ => ⟨rfl, rfl, fun _ => rfl⟩, fun _ _ => ⟨rfl, rfl⟩, fun h => absurd h hrefused⟩

/-- CLR writes the counters its mask names (R183). -/
theorem withinWriteSet_clearLengths (b k : Bool) (s : State) : WithinWriteSet (.clr b k) s (clearLengths b k s) := by
  have hkey : (∀ b', Instr.clr b k ≠ .clr b' true) → k = false := by simp
  have hblk : (∀ k', Instr.clr b k ≠ .clr true k') → b = false := by simp
  rw [clearLengths_eq]
  refine ⟨rfl, rfl, rfl, rfl, rfl, rfl, rfl, rfl, fun h => ?_, fun h => ?_, fun _ => rfl,
    fun _ _ => ⟨rfl, rfl, fun h => ?_⟩, fun _ _ => ⟨rfl, rfl⟩, fun _ => ⟨rfl, rfl, rfl⟩⟩
  · rw [hkey h]; rfl
  · rw [hblk h]; rfl
  · rw [hkey h]; rfl

/-- The last busy cycle writes what the completion part does (R181). -/
theorem withinWriteSet_finish (i : Instr) (s : State) : WithinWriteSet i s (completionPart i s).finish := by
  have hschedule := completionPart_schedule_cases i s
  have hblk := completionPart_blk_cases i s
  have hprod := fun h : i ≠ .gfmul => completionPart_prod h s
  obtain ⟨b, bhi, x, v, xd, p, he⟩ := completionPart_eq i s
  rw [he] at hschedule hblk hprod ⊢
  refine ⟨rfl, rfl, rfl, rfl, rfl, rfl, rfl, rfl, fun _ => rfl, fun _ => rfl, hprod, fun hmem hark => ?_,
    fun hmem hark => ?_, fun _ => ⟨rfl, rfl, rfl⟩⟩
  · rw [needsKey_eq_false hmem hark] at hschedule
    obtain ⟨hw, hks, hdef⟩ | ⟨hfalse, -⟩ := hschedule
    · exact ⟨hw, hdef, fun _ => hks⟩
    · cases hfalse
  · rw [needsBlock_eq_false hmem hark] at hblk
    obtain h | ⟨hfalse, -⟩ := hblk
    · exact h
    · cases hfalse

/-- NOP and CLR written to a busy core are refused (R182, R183). -/
theorem withinWriteSet_unlessBusy {i : Instr} {f : State → State} {s : State} (hi : isBusyCommand i = false)
    (hf : WithinWriteSet i s (f s)) : WithinWriteSet i s (unlessBusy Port.cmd f s) := by
  cases hb : s.busy with
  | true =>
    rw [unlessBusy_of_busy _ _ _ hb]
    exact withinWriteSet_raiseError (by simp [hb, hi]) _ _
  | false => rw [unlessBusy_of_idle _ _ _ hb]; exact hf

theorem exec_withinWriteSet {i : Instr} {s t : State} (hw : WellFormed i) (h : exec i s = .next t) :
    WithinWriteSet i s t := by
  rcases exec_next_cases i s t hw h with ⟨rfl, rfl⟩ | ⟨b, k, rfl, rfl⟩ | ⟨hi, rfl⟩
  · exact withinWriteSet_unlessBusy rfl (withinWriteSet_sequencer _ s _ _ _ _ _)
  · exact withinWriteSet_unlessBusy rfl (withinWriteSet_clearLengths b k s)
  · rcases busyCommand_cases s i (completionPart i) with ⟨-, -, he⟩ | ⟨-, -, he⟩ | ⟨hb, hbad, he⟩ | ⟨-, -, -, he⟩ <;> rw [he]
    · exact withinWriteSet_sequencer _ s _ _ _ _ _
    · exact withinWriteSet_finish i s
    · refine withinWriteSet_raiseError ?_ _ _
      rintro (⟨hbusy, -⟩ | ⟨hk, hbl, -⟩)
      · rw [hb] at hbusy; cases hbusy
      · rw [hk, hbl] at hbad; exact hbad.elim Bool.noConfusion Bool.noConfusion
    · exact withinWriteSet_sequencer _ s _ _ _ _ _

/-! ### The frame over the address map (R70) -/

/-- The row of a location in the map of R70: its first address and the first after it. The registers share one row, and
the reserved locations lie between the rows. -/
def Loc.row : Loc → Nat × Nat
  | .key _ => (0x010, 0x020)
  | .blk _ => (0x020, 0x030)
  | .rcon _ => (0x030, 0x03A)
  | .w _ => (0x100, 0x1B0)
  | .sbox _ => (0x200, 0x300)
  | .invSbox _ => (0x300, 0x400)
  | .reserved => (0x00E, 0x200)
  | _ => (0x000, 0x00E)

theorem locate_row (a : Addr) : (locate a).row.1 ≤ a.toNat ∧ a.toNat < (locate a).row.2 := by
  revert a; decide +kernel

/-- From `0x010` on the host sees the same of two cores that agree on `KEY` and, inside their windows, on `BLK` and `W`. -/
theorem storedAt_congr {s t : State} {a : Addr} (ha : 0x010 ≤ a.toNat) (hkey : t.key = s.key ∧ t.keyHi = s.keyHi)
    (hblk : 0x020 ≤ a.toNat ∧ a.toNat < 0x030 → t.blk = s.blk ∧ t.blkHi = s.blkHi)
    (hw : 0x100 ≤ a.toNat ∧ a.toNat < 0x1B0 → t.w = s.w ∧ t.wDef = s.wDef) : storedAt t a = storedAt s a := by
  have hrange := locate_row a
  unfold storedAt busRead
  cases hl : locate a with
  | key j => simp only [readLoc, hkey]
  | blk j => rw [hl] at hrange; simp only [readLoc, ifIdle, hblk hrange]
  | w j => rw [hl] at hrange; simp only [readLoc, ifIdle, hw hrange]
  | rcon | sbox | invSbox | reserved => rfl
  | _ =>
    rw [hl] at hrange
    have hlt : a.toNat < 0x00E := hrange.2
    omega

/-! ### The statements -/

/-- Settles O21: the lengths a command does not need are never wrong, the others are 16. -/
theorem rightLengthsAreAccepted : Obligations.RightLengthsAreAccepted := by
  intro i s hw hi hb hkey hblk
  refine exec_accepted hw hi hb ?_ ?_
  · rw [Bool.eq_false_iff, ne_eq, keyBad_iff]; exact fun h => h.2 (hkey h.1)
  · rw [Bool.eq_false_iff, ne_eq, blkBad_iff]; exact fun h => h.2 (hblk h.1)

/-- Settles O22: every busy command counts down, and its last cycle ends with `BUSY <- 0; DONE <- 1`. -/
theorem busyCyclesCountDown : Obligations.BusyCyclesCountDown := fun i s hw hi hb =>
  ⟨countsDown_of_isBusyCommand hw hi s hb, fun hc => ⟨_, exec_last i s hw hi hb hc, rfl, rfl⟩⟩

/-- Settles O23: the frame of each phase of a command, and of the refusals. -/
theorem commandWriteSets : Obligations.CommandWriteSets := fun _ _ _ => exec_withinWriteSet

/-- Settles O24: the stored bytes the host sees come from `KEY`, `BLK` and `W`, which the frame of the command keeps. -/
theorem commandsLeaveOtherBytes : Obligations.CommandsLeaveOtherBytes := by
  intro i s t a hw h ha
  obtain ⟨hkey, -, -, -, -, hhi, -, -, -, -, -, hschedule, hblk, -⟩ := exec_withinWriteSet hw h
  refine ⟨fun hin hmem hark => ?_, fun hin hmem hark => ?_, fun hnblk hnw => ?_⟩
  · exact storedAt_congr ha ⟨hkey, hhi⟩ (fun _ => hblk hmem hark) fun hin' => absurd hin.2 (by omega)
  · obtain ⟨hw', hdef, -⟩ := hschedule hmem hark
    exact storedAt_congr ha ⟨hkey, hhi⟩ (fun hin' => absurd hin.1 (by omega)) fun _ => ⟨hw', hdef⟩
  · exact storedAt_congr ha ⟨hkey, hhi⟩ (fun hin => absurd hin hnblk) fun hin => absurd hin hnw

end Sys2Proof.Machine
end

section
/-! PROOFS. The bus: the stream ports (R74, R75), what a read leaves behind (R64), the columns of the address map (R70) and
what the host sees after reset (R221). -/

namespace Sys2Proof.Machine

/-! ### The stream ports (R74, R75) -/

theorem hostWrite_keyin (v : Byte) (s : State) :
    hostWrite (Pins.write Port.keyin v) s = unlessBusy Port.keyin (fun t => t.pushKey v) s := rfl

theorem hostWrite_blkin (v : Byte) (s : State) :
    hostWrite (Pins.write Port.blkin v) s = unlessBusy Port.blkin (fun t => t.pushBlk v) s := rfl

theorem step_of_keyin {s : State} {v : Byte} (hb : s.busy = false) (hp : s.pins = Pins.write Port.keyin v) :
    step s = .next (({ s with host := s.host.tail } : State).pushKey v) := by
  rw [step_of_write s _ v hb hp (by simp), hostWrite_keyin]
  exact congrArg _ (unlessBusy_of_idle _ _ _ hb)

theorem step_of_blkin {s : State} {v : Byte} (hb : s.busy = false) (hp : s.pins = Pins.write Port.blkin v) :
    step s = .next (({ s with host := s.host.tail } : State).pushBlk v) := by
  rw [step_of_write s _ v hb hp (by simp), hostWrite_blkin]
  exact congrArg _ (unlessBusy_of_idle _ _ _ hb)

/-- The byte goes to the index the counter names, if the array has it. -/
theorem storeByte_eq_dite (a : Block) (l : Len) (v : Byte) :
    storeByte a l v = if h : l.toNat < 16 then a.set l.toNat v else a := by
  split
  case isTrue h => exact Vector.ext fun n hn => by rw [storeByte_getElem, Vector.getElem_set]
  case isFalse h => exact Vector.ext fun n hn => by rw [storeByte_getElem, if_neg (by omega)]

theorem storeByte_of_le {l : Len} (h : 16 ≤ l.toNat) (a : Block) (v : Byte) : storeByte a l v = a := by
  rw [storeByte_eq_dite, dif_neg (Nat.not_lt.2 h)]

/-- A counter that has reached 16 goes on to 17 at least, where no command accepts it (R74, R75). -/
theorem seventeen_le_incLen {l : Len} (h : 16 ≤ l.toNat) : 17 ≤ (incLen l).toNat := by
  rw [incLen_toNat]; omega

theorem ne_sixteen_of_seventeen_le {l : Len} (h : 17 ≤ l.toNat) : l ≠ 16#5 := by
  rintro rfl; exact absurd h (by decide)

/-! ### The flags of a length error (R201) -/

theorem lengthInfo_keyBad (op : BitVec 4) (b : Bool) : (lengthInfo op b true).getLsbD 0 = true := by
  revert op b; decide

theorem lengthInfo_blkBad (op : BitVec 4) (b : Bool) : (lengthInfo op true b).getLsbD 1 = true := by
  revert op b; decide

/-- A command that needs the key reports its wrong length in bit 0 (R191). -/
theorem exec_reports_keyBad {i : Instr} {s : State} (hw : WellFormed i) (hb : s.busy = false) (hneeds : needsKey i = true)
    (hlen : s.keylen ≠ 16#5) :
    ∃ info : Byte, info.getLsbD 0 = true ∧ exec i s = .next (recorded 0x01#8 info s) := by
  have hbad := (keyBad_iff i s).2 ⟨hneeds, hlen⟩
  refine ⟨_, ?_, exec_refused_of_badLength hw (isBusyCommand_of_needs (.inl hneeds)) hb (.inl hbad)⟩
  rw [hbad, lengthInfo_keyBad]

/-- A command that needs the block reports its wrong length in bit 1 (R191). -/
theorem exec_reports_blkBad {i : Instr} {s : State} (hw : WellFormed i) (hb : s.busy = false)
    (hneeds : needsBlock i = true) (hlen : s.blklen ≠ 16#5) :
    ∃ info : Byte, info.getLsbD 1 = true ∧ exec i s = .next (recorded 0x01#8 info s) := by
  have hbad := (blkBad_iff i s).2 ⟨hneeds, hlen⟩
  refine ⟨_, ?_, exec_refused_of_badLength hw (isBusyCommand_of_needs (.inr hneeds)) hb (.inr hbad)⟩
  rw [hbad, lengthInfo_blkBad]

/-! ### The access of a cycle (R62, R64) -/

theorem not_isWrite_of_read {p : Pins} (h : p.wr = false) : p.isWrite = false := by simp [Pins.isWrite, h]

theorem not_isWrite_of_noAccess {p : Pins} (h : p.sel = false) : p.isWrite = false := by simp [Pins.isWrite, h]

/-- Without a write an idle core's step is the sampling of its pins. -/
theorem step_of_idle_of_not_write {s : State} (hr : s.pins.rst = false) (hb : s.busy = false)
    (hw : s.pins.isWrite = false) : step s = .next (sample s.pins s) := by
  rw [step_of_idle s hr hb (by simp [Pins.writesCmd, hw]), hostWrite_of_not_write _ _ hw]

/-- `s` after the access of its cycle: the read recorded, the write performed, without the sequencer's part. -/
def afterAccess (s : State) : State := hostWrite s.pins (sample s.pins s)

theorem afterAccess_of_not_write {s : State} (h : s.pins.isWrite = false) : afterAccess s = sample s.pins s :=
  hostWrite_of_not_write _ _ h

/-- The access to a busy core leaves the running command and its data alone (R62, R230). -/
theorem afterAccess_keeps {s : State} (hb : s.busy = true) :
    (afterAccess s).busy = true ∧ (afterAccess s).seqOp = s.seqOp ∧ (afterAccess s).seqCnt = s.seqCnt ∧
    SameData s (afterAccess s) := by
  obtain ⟨hb', hop, hcnt, hdata, -⟩ := sample_keeps s.pins s
  obtain ⟨hb'', hop', hcnt', hdata'⟩ := hostWrite_keeps s.pins (sample s.pins s) (hb'.trans hb)
  exact ⟨hb'', hop'.trans hop, hcnt'.trans hcnt, hdata.trans hdata'⟩

/-- A busy core's step is the running command's busy cycle, after the access of the cycle (R62, R181). -/
theorem step_eq_exec {s : State} {i : Instr} (hr : s.pins.rst = false) (hb : s.busy = true)
    (hd : decode s.seqOp = .command i) (hi : isBusyCommand i = true) : step s = exec i (afterAccess s) := by
  obtain ⟨-, hop, -⟩ := afterAccess_keeps hb
  exact (step_of_busy s hr hb).trans (sequencerPart_of_running _ i (hop ▸ hd) hi)

theorem step_of_busy_of_not_write {s : State} {i : Instr} (hr : s.pins.rst = false) (hb : s.busy = true)
    (hd : decode s.seqOp = .command i) (hi : isBusyCommand i = true) (hw : s.pins.isWrite = false) :
    step s = exec i (sample s.pins s) := by
  rw [step_eq_exec hr hb hd hi, afterAccess_of_not_write hw]

theorem rdata_of_byte {s : State} {p : Pins} {v : Byte} (hs : p.sel = true) (hw : p.wr = false)
    (h : busRead s p.addr = .byte v) : rdata s p = v := by
  simp [rdata, Pins.isRead, hs, hw, h, resolve]

theorem rdata_of_not_read {s : State} {p : Pins} (h : p.sel = false ∨ p.wr = true) : rdata s p = 0x00#8 := by
  have hr : p.isRead = false := by rcases h with h | h <;> simp [Pins.isRead, h]
  rw [rdata, hr]; rfl

/-! ### The windows of an idle core (R41, R70) -/

section
variable {s : State}

theorem busRead_key (i : Fin 16) :
    busRead s (BitVec.ofNat 10 (0x010 + i.val)) = if i.val < s.keyHi then .byte s.key[i] else .any8 := by
  simp [busRead, locate_key, readLoc, ifWritten]

theorem busRead_blk (hb : s.busy = false) (i : Fin 16) :
    busRead s (BitVec.ofNat 10 (0x020 + i.val)) = if i.val < s.blkHi then .byte s.blk[i] else .any8 := by
  simp [busRead, locate_blk, readLoc, ifIdle, ifWritten, hb]

theorem busRead_w (hb : s.busy = false) (i : Fin 176) :
    busRead s (BitVec.ofNat 10 (0x100 + i.val)) = if s.wDef then .byte s.w[i] else .any8 := by
  rw [busRead, locate_w, readLoc, ifIdle, hb]; rfl

theorem busRead_prod (hb : s.busy = false) : busRead s 0x00B#10 = .byte s.prod := by
  show ifIdle s (.byte s.prod) = _
  rw [ifIdle, hb]; rfl

theorem busRead_reserved {a : Addr} (h : (0x03A ≤ a.toNat ∧ a.toNat ≤ 0x0FF) ∨ (0x1B0 ≤ a.toNat ∧ a.toNat ≤ 0x1FF)) :
    busRead s a = .byte 0x00#8 := by
  rw [busRead, locate_reserved a (.inr (.inr h)), readLoc]

end

/-! ### The interrupt output (R205) -/

theorem irq_iff (s : State) : irq s = true ↔ (s.done = true ∧ s.die = true) ∨ (s.err = true ∧ s.eie = true) := by
  simp [irq]

theorem irq_of_done {s : State} (hdone : s.done = true) (hdie : s.die = true) : irq s = true :=
  (irq_iff s).2 (.inl ⟨hdone, hdie⟩)

/-! ### The statements -/

/-- Settles O6: the write to `CMD` is `command` of its byte, which decodes to the command. -/
theorem stepIssuesTheDecodedCommand : Obligations.StepIssuesTheDecodedCommand := by
  intro s c i hb hp hd
  rw [step_of_cmdWrite hb hp, command, hd]

/-- Settles O7: neither the sampling nor the write of a busy core touches `SEQ.OP`. -/
theorem stepRunsTheBusyCommand : Obligations.StepRunsTheBusyCommand := fun _ _ => step_eq_exec

/-- Settles O8: the byte decodes to its command, and `withFetchWord` makes its write the next access of an idle core. -/
theorem fetchWordIsIssuedNext : Obligations.FetchWordIsIssuedNext := by
  intro s i hw
  have hbyte : BitVec.ofNat 8 ((encode i).toNat % 2 ^ 8) = encode i := by
    rw [Nat.mod_eq_of_lt (encode i).isLt, BitVec.ofNat_toNat, BitVec.setWidth_eq]
  refine ⟨by rw [decodeTableWord, hbyte, decode_encode hw], ?_⟩
  rw [State.withFetchWord, hbyte]
  exact stepIssuesTheDecodedCommand _ (encode i) i rfl rfl (decode_encode hw)

/-- Settles O25: an idle core streams the byte in, a busy one refuses the write. -/
theorem keyinStreamsOneByte : Obligations.KeyinStreamsOneByte := by
  refine ⟨fun s v hb hp => ?_, fun s v hb => hostWrite_refused Port.keyin v s (by simp [RefusedPort]) hb⟩
  rw [step_of_keyin hb hp, State.pushKey, storeByte_eq_dite, incLen, raiseMark]

/-- Settles O26: an idle core streams the byte in, a busy one refuses the write. -/
theorem blkinStreamsOneByte : Obligations.BlkinStreamsOneByte := by
  refine ⟨fun s v hb hp => ?_, fun s v hb => hostWrite_refused Port.blkin v s (by simp [RefusedPort]) hb⟩
  rw [step_of_blkin hb hp, State.pushBlk, storeByte_eq_dite, incLen, raiseMark]

/-- Settles O27: there is no index 16, and the counter goes past 16, which every command that needs it reports. -/
theorem overlongLoadIsReported : Obligations.OverlongLoadIsReported := by
  refine ⟨fun s v hb hlen hp => ?_, fun s v hb hlen hp => ?_⟩
  · refine ⟨_, step_of_keyin hb hp, storeByte_of_le hlen _ v, seventeen_le_incLen hlen, le_incLen _,
      fun i hw hneeds => exec_reports_keyBad hw hb hneeds ?_⟩
    exact ne_sixteen_of_seventeen_le (seventeen_le_incLen hlen)
  · refine ⟨_, step_of_blkin hb hp, storeByte_of_le hlen _ v, seventeen_le_incLen hlen, le_incLen _,
      fun i hw hneeds => exec_reports_blkBad hw hb hneeds ?_⟩
    exact ne_sixteen_of_seventeen_le (seventeen_le_incLen hlen)

/-- Settles O34: no host write takes effect, so what is left of the cycle is the sampling and, while busy, the command. -/
theorem readsHaveNoSideEffect : Obligations.ReadsHaveNoSideEffect := by
  refine ⟨fun s hr hs hw => ?_, fun s hr hs => ?_, fun s p v => rdata_of_byte, fun s p => rdata_of_not_read⟩
  · rw [← sample_of_read s hs hw]
    exact ⟨fun hb => step_of_idle_of_not_write hr hb (not_isWrite_of_read hw),
      fun i hb hd hi => step_of_busy_of_not_write hr hb hd hi (not_isWrite_of_read hw)⟩
  · rw [← sample_of_noAccess s hs]
    exact ⟨fun hb => step_of_idle_of_not_write hr hb (not_isWrite_of_noAccess hs),
      fun i hb hd hi => step_of_busy_of_not_write hr hb hd hi (not_isWrite_of_noAccess hs)⟩

/-- Settles O35: the registers by their own addresses, the windows by their ranges. -/
theorem readColumnOfTheMap : Obligations.ReadColumnOfTheMap := by
  intro s hb
  refine ⟨rfl, rfl, rfl, rfl, rfl, fun a => busRead_reserved, rfl, rfl, rfl, rfl, rfl, rfl, rfl, rfl, busRead_prod hb,
    rfl, rfl, busRead_key, busRead_blk hb, fun k => ?_, busRead_w hb, fun v => ?_, fun v => ?_⟩
  · rw [busRead, locate_rcon, readLoc]
  · rw [busRead, locate_sbox, readLoc]
  · rw [busRead, locate_invSbox, readLoc]

/-- Settles O38: every register has its reset value, and the marks say that no byte of the three windows is written. -/
theorem whatTheHostSeesAfterReset : Obligations.WhatTheHostSeesAfterReset :=
  ⟨rfl, rfl, rfl, rfl, rfl, rfl, rfl, rfl, rfl, rfl, rfl, rfl, rfl,
    fun i => ⟨busRead_key_of_unwritten rfl i, busRead_blk_of_unwritten rfl i⟩, busRead_w_of_unwritten rfl⟩

/-- Settles O39: a write to `CTRL` keeps `DONE`, and a completion sets it and keeps `DIE`. -/
theorem interruptOutput : Obligations.InterruptOutput := by
  refine ⟨irq_iff, fun s hb hdone hp => ?_, fun s i hb hc hw hi hdie => ?_⟩
  · exact ⟨_, step_of_write s _ _ hb hp (by simp), irq_of_done hdone rfl⟩
  · obtain ⟨-, -, -, hdie', -⟩ := exec_withinWriteSet hw (exec_last i s hw hi hb hc)
    exact ⟨_, exec_last i s hw hi hb hc, irq_of_done rfl (hdie'.trans hdie)⟩

end Sys2Proof.Machine
end

section
/-! PROOFS. Everything a host write and a clock cycle can do, each said once as an inductive of its cases (R62, R65), and
from it the whole-machine rules (R27, R184, R200, R234), the invariant and progress. -/

namespace Sys2Proof.Machine

/-! ### Everything a host write can do (R65) -/

/-- What the write of a cycle, short of issuing a command, makes of a state. -/
inductive HostWriteOutcome (p : Pins) (s : State) : State → Prop
  | nothing : HostWriteOutcome p s s
  | acknowledge (hw : p.isWrite = true) (ha : p.addr = Port.status) : HostWriteOutcome p s (acknowledge p.wdata s)
  | control : HostWriteOutcome p s (s.setCtrl p.wdata)
  | refused (hb : s.busy = true) (ha : RefusedPort p.addr) :
      HostWriteOutcome p s (recorded 0x03#8 (p.addr.extractLsb' 0 8) s)
  | keyin (hb : s.busy = false) : HostWriteOutcome p s (s.pushKey p.wdata)
  | blkin (hb : s.busy = false) : HostWriteOutcome p s (s.pushBlk p.wdata)
  | opa (hb : s.busy = false) : HostWriteOutcome p s (s.setOpa p.wdata)
  | opb (hb : s.busy = false) : HostWriteOutcome p s (s.setOpb p.wdata)

/-- At the five ports of R193 an idle core performs the write, and nothing at `CMD`. -/
theorem hostWriteOutcome_of_idle_of_refusedPort {p : Pins} {s : State} (hw : p.isWrite = true) (hb : s.busy = false)
    (ha : RefusedPort p.addr) : HostWriteOutcome p s (hostWrite p s) := by
  rw [hostWrite_of_isWrite hw]
  rcases ha with ha | ha | ha | ha | ha <;> rw [ha]
  · rw [show hostWrite (Pins.write Port.cmd p.wdata) s = s from unlessBusy_of_idle _ _ _ hb]; exact .nothing
  · rw [hostWrite_keyin, unlessBusy_of_idle _ _ _ hb]; exact .keyin hb
  · rw [hostWrite_blkin, unlessBusy_of_idle _ _ _ hb]; exact .blkin hb
  · rw [hostWrite_opa, unlessBusy_of_idle _ _ _ hb]; exact .opa hb
  · rw [hostWrite_opb, unlessBusy_of_idle _ _ _ hb]; exact .opb hb

theorem hostWriteOutcome (p : Pins) (s : State) : HostWriteOutcome p s (hostWrite p s) := by
  cases hw : p.isWrite with
  | false => rw [hostWrite_of_not_write p s hw]; exact .nothing
  | true =>
    by_cases hport : RefusedPort p.addr
    · cases hb : s.busy with
      | false => exact hostWriteOutcome_of_idle_of_refusedPort hw hb hport
      | true => rw [hostWrite_of_isWrite hw, hostWrite_refused _ _ _ hport hb]; exact .refused hb hport
    · rw [hostWrite_of_isWrite hw]
      by_cases hstatus : p.addr = Port.status
      · rw [hstatus, hostWrite_status]; exact .acknowledge hw hstatus
      by_cases hctrl : p.addr = Port.ctrl
      · rw [hctrl, hostWrite_ctrl]; exact .control
      · rw [hostWrite_of_ignored _ _ s hstatus hctrl hport]; exact .nothing

/-! ### Everything a clock cycle can do (R62) -/

/-- What one cycle makes of a state. -/
inductive StepOutcome (s : State) : State → Prop
  | reset (hr : s.pins.rst = true) : StepOutcome s (resetEdge (sample s.pins s))
  | countDown (hr : s.pins.rst = false) (hb : s.busy = true) (hc : 1 < s.seqCnt) :
      StepOutcome s { afterAccess s with seqCnt := s.seqCnt - 1 }
  | complete (hr : s.pins.rst = false) (hb : s.busy = true) (hc : s.seqCnt ≤ 1) (i : Instr)
      (hd : decode s.seqOp = .command i) :
      StepOutcome s (completionPart i (afterAccess s)).finish
  | nop (hb : s.busy = false) : StepOutcome s (sample s.pins s)
  | clear (hb : s.busy = false) (b k : Bool) : StepOutcome s (clearLengths b k (sample s.pins s))
  | accept (hr : s.pins.rst = false) (hb : s.busy = false) (hc : s.pins.writesCmd = true) (i : Instr)
      (hd : decode s.pins.wdata = .command i) (hi : isBusyCommand i = true) (hkey : keyBad i s = false)
      (hblk : blkBad i s = false) : StepOutcome s (accept s.pins.wdata (sample s.pins s))
  | refuse (hb : s.busy = false) (c : Cause) (x : Byte) (hlegal : LegalError (causeCode c) x) :
      StepOutcome s (raiseError c x (sample s.pins s))
  | write (hb : s.busy = false) : StepOutcome s (afterAccess s)

theorem keyBad_sample (i : Instr) (p : Pins) (s : State) : keyBad i (sample p s) = keyBad i s := by
  obtain ⟨rs, d, h⟩ := sample_eq p s; rw [h]; rfl

theorem blkBad_sample (i : Instr) (p : Pins) (s : State) : blkBad i (sample p s) = blkBad i s := by
  obtain ⟨rs, d, h⟩ := sample_eq p s; rw [h]; rfl

/-- The cycle of a running command counts down or completes (R181). -/
theorem stepOutcome_of_busy {s t : State} {i : Instr} (hr : s.pins.rst = false) (hb : s.busy = true)
    (hd : decode s.seqOp = .command i) (hi : isBusyCommand i = true)
    (h : exec i (afterAccess s) = .next t) : StepOutcome s t := by
  obtain ⟨hb', -, hcnt, -⟩ := afterAccess_keeps hb
  rw [exec_eq_busyCommand i _ (wellFormed_of_decode hd) hi, busyCommand_of_busy _ _ _ hb'] at h
  cases h
  rcases busyCycle_cases _ _ (completionPart i) rfl with ⟨hlt, he⟩ | ⟨hle, he⟩
  · rw [he, hcnt]; exact .countDown hr hb (hcnt ▸ hlt)
  · rw [he]; exact .complete hr hb (hcnt ▸ hle) i hd

/-- The issue of a command clears, is refused or is accepted (R180). -/
theorem stepOutcome_of_command {s t : State} {i : Instr} (hr : s.pins.rst = false) (hb : s.busy = false)
    (hc : s.pins.writesCmd = true) (hd : decode s.pins.wdata = .command i) (h : exec i (sample s.pins s) = .next t) :
    StepOutcome s t := by
  have hw := wellFormed_of_decode hd
  rcases exec_idle_cases i _ t hw (by rw [sample_busy, hb]) h with
    ⟨-, rfl⟩ | ⟨b, k, -, rfl⟩ | ⟨-, hbad, rfl⟩ | ⟨hi, hkey, hblk, rfl⟩
  · exact .nop hb
  · exact .clear hb b k
  · exact .refuse hb _ _ (legalError_of_badLength i _ hw hbad)
  · rw [encode_of_decode hd]
    rw [keyBad_sample] at hkey
    rw [blkBad_sample] at hblk
    exact .accept hr hb hc i hd hi hkey hblk

theorem stepOutcome {s t : State} (h : step s = .next t) : StepOutcome s t := by
  rcases step_next_cases h with ⟨hr, rfl⟩ | ⟨hr, hb, i, hd, hi, he⟩ | ⟨hr, hb, hc, i, hd, he⟩ |
    ⟨-, hb, -, why, hd, rfl⟩ | ⟨-, hb, -, rfl⟩
  · exact .reset hr
  · exact stepOutcome_of_busy hr hb hd hi he
  · exact stepOutcome_of_command hr hb hc hd he
  · exact .refuse hb _ _ (.inr (.inl ⟨rfl, why, hd⟩))
  · exact .write hb

/-! ### The first error wins (R200, R202) -/

/-- The error registers of `t` are those of `s`. -/
def SameErrors (s t : State) : Prop := t.err = s.err ∧ t.errcode = s.errcode ∧ t.errinfo = s.errinfo

theorem SameErrors.refl (s : State) : SameErrors s s := ⟨rfl, rfl, rfl⟩

theorem SameErrors.trans {s t u : State} (h : SameErrors s t) (h' : SameErrors t u) : SameErrors s u := by
  obtain ⟨h1, h2, h3⟩ := h
  obtain ⟨h1', h2', h3'⟩ := h'
  exact ⟨h1'.trans h1, h2'.trans h2, h3'.trans h3⟩

theorem sameErrors_raiseError {s : State} (herr : s.err = true) (c : Cause) (x : Byte) :
    SameErrors s (raiseError c x s) := by
  rw [raiseError_of_err _ _ _ herr]; exact .refl s

theorem sameErrors_completionPart (i : Instr) (s : State) : SameErrors s (completionPart i s) := by
  obtain ⟨b, bhi, x, v, xd, p, h⟩ := completionPart_eq i s
  rw [h]; exact ⟨rfl, rfl, rfl⟩

/-- Only an acknowledgement clears a recorded error. -/
theorem sameErrors_hostWrite {p : Pins} {s : State} (herr : s.err = true)
    (hp : p.isWrite = true → p.addr ≠ Port.status) : SameErrors s (hostWrite p s) := by
  have h := hostWriteOutcome p s
  generalize hostWrite p s = t at h ⊢
  cases h with
  | acknowledge hw ha => exact absurd ha (hp hw)
  | refused => rw [← causeCode, ← raiseError_eq_recorded]; exact sameErrors_raiseError herr _ _
  | _ => exact ⟨rfl, rfl, rfl⟩

/-- No command changes the error registers of a core with an error. -/
theorem sameErrors_exec {i : Instr} {s t : State} (hw : WellFormed i) (herr : s.err = true) (h : exec i s = .next t) :
    SameErrors s t := by
  have hunless : ∀ f : State → State, SameErrors s (f s) → SameErrors s (unlessBusy Port.cmd f s) := fun f hf => by
    unfold unlessBusy
    split
    · exact sameErrors_raiseError herr _ _
    · exact hf
  rcases exec_next_cases i s t hw h with ⟨-, rfl⟩ | ⟨b, k, -, rfl⟩ | ⟨-, rfl⟩
  · exact hunless _ (.refl s)
  · exact hunless _ (by rw [clearLengths_eq]; exact ⟨rfl, rfl, rfl⟩)
  · rcases busyCommand_cases s i (completionPart i) with ⟨-, -, he⟩ | ⟨-, -, he⟩ | ⟨-, -, he⟩ | ⟨-, -, -, he⟩ <;> rw [he]
    · exact ⟨rfl, rfl, rfl⟩
    · exact sameErrors_completionPart i s
    · exact sameErrors_raiseError herr _ _
    · exact ⟨rfl, rfl, rfl⟩

theorem command_sameErrors {s : State} (herr : s.err = true) (c : Byte) : ∃ t, command c s = .next t ∧ SameErrors s t := by
  unfold command
  split
  case h_1 i hd =>
    obtain ⟨t, ht⟩ := exec_isNext i s
    exact ⟨t, ht, sameErrors_exec (wellFormed_of_decode hd) herr ht⟩
  case h_2 => exact ⟨_, rfl, sameErrors_raiseError herr _ _⟩

/-! ### `KEY` and the schedule (R27, R85) -/

/-- `KEY` and `KEYLEN` are those of `s`, or `KSVALID` is 0. -/
def KeyKeptOrInvalid (s t : State) : Prop := (t.key = s.key ∧ t.keylen = s.keylen) ∨ t.ksvalid = false

theorem SameData.keyKept {s t : State} (h : SameData s t) : t.key = s.key ∧ t.keylen = s.keylen := by
  obtain ⟨hkey, hlen, -⟩ := h; exact ⟨hkey, hlen⟩

theorem completionPart_key (i : Instr) (s : State) :
    (completionPart i s).key = s.key ∧ (completionPart i s).keylen = s.keylen := by
  obtain ⟨b, bhi, x, v, xd, p, h⟩ := completionPart_eq i s
  rw [h]; exact ⟨rfl, rfl⟩

theorem keyKeptOrInvalid_hostWrite (p : Pins) (s : State) : KeyKeptOrInvalid s (hostWrite p s) := by
  have h := hostWriteOutcome p s
  generalize hostWrite p s = t at h ⊢
  cases h with
  | acknowledge => rw [acknowledge_eq]; exact .inl ⟨rfl, rfl⟩
  | keyin => exact .inr rfl
  | _ => exact .inl ⟨rfl, rfl⟩

theorem keyKeptOrInvalid_of_step {s t : State} (h : step s = .next t) : KeyKeptOrInvalid s t := by
  obtain ⟨-, -, -, hsample, -⟩ := sample_keeps s.pins s
  obtain ⟨hkey, hlen⟩ := hsample.keyKept
  have hwrite := keyKeptOrInvalid_hostWrite s.pins (sample s.pins s)
  unfold KeyKeptOrInvalid at hwrite ⊢
  rw [hkey, hlen] at hwrite
  cases stepOutcome h with
  | reset => exact .inr rfl
  | countDown _ hb =>
    obtain ⟨-, -, -, hdata⟩ := afterAccess_keeps hb
    exact .inl hdata.keyKept
  | complete _ hb _ i =>
    obtain ⟨-, -, -, hdata⟩ := afterAccess_keeps hb
    obtain ⟨hk, hl⟩ := hdata.keyKept
    obtain ⟨hk', hl'⟩ := completionPart_key i (afterAccess s)
    exact .inl ⟨hk'.trans hk, hl'.trans hl⟩
  | clear _ b k =>
    rw [clearLengths_eq]
    cases k with
    | true => exact .inr rfl
    | false => exact .inl ⟨hkey, hlen⟩
  | refuse => rw [raiseError_eq]; exact .inl ⟨hkey, hlen⟩
  | write => exact hwrite
  | _ => exact .inl ⟨hkey, hlen⟩

/-! ### `BUSY` and `DONE` (R184, R234) -/

theorem hostWrite_busy (p : Pins) (s : State) : (hostWrite p s).busy = s.busy := by
  have h := hostWriteOutcome p s
  generalize hostWrite p s = t at h ⊢
  cases h with
  | acknowledge => rw [acknowledge_eq]
  | _ => rfl

/-- Only an acknowledgement with bit 1 set changes `DONE`, and it clears it. -/
theorem hostWrite_done (p : Pins) (s : State) : (hostWrite p s).done = s.done ∨
    (p.isWrite = true ∧ p.addr = Port.status ∧ p.wdata.getLsbD 1 = true ∧ (hostWrite p s).done = false) := by
  have h := hostWriteOutcome p s
  generalize hostWrite p s = t at h ⊢
  cases h with
  | acknowledge hw ha => rw [acknowledge_eq]; cases hv : p.wdata.getLsbD 1 <;> simp [hw, ha]
  | _ => exact .inl rfl

/-- What one cycle can do to `BUSY` and `DONE`. -/
theorem busy_done_of_step {s t : State} (h : step s = .next t) :
    (s.pins.rst = true ∧ t.busy = false ∧ t.done = false) ∨
    (s.pins.rst = false ∧ s.busy = true ∧ s.seqCnt ≤ 1 ∧ t.busy = false ∧ t.done = true) ∨
    (s.busy = false ∧ t.busy = true ∧ t.done = false) ∨
    (t.busy = s.busy ∧ (t.done = s.done ∨ (s.pins.isWrite = true ∧ s.pins.addr = Port.status ∧
      s.pins.wdata.getLsbD 1 = true ∧ t.done = false))) := by
  obtain ⟨hbusy, -, -, -, -, -, -, -, hdone⟩ := sample_keeps s.pins s
  have hwbusy := hostWrite_busy s.pins (sample s.pins s)
  have hwdone := hostWrite_done s.pins (sample s.pins s)
  rw [hbusy] at hwbusy
  rw [hdone] at hwdone
  cases stepOutcome h with
  | reset hr => exact .inl ⟨hr, rfl, rfl⟩
  | countDown => exact .inr (.inr (.inr ⟨hwbusy, hwdone⟩))
  | complete hr hb hc => exact .inr (.inl ⟨hr, hb, hc, rfl, rfl⟩)
  | nop => exact .inr (.inr (.inr ⟨hbusy, .inl hdone⟩))
  | clear _ b k => rw [clearLengths_eq]; exact .inr (.inr (.inr ⟨hbusy, .inl hdone⟩))
  | accept _ hb => exact .inr (.inr (.inl ⟨hb, rfl, rfl⟩))
  | refuse => rw [raiseError_eq]; exact .inr (.inr (.inr ⟨hbusy, .inl hdone⟩))
  | write => exact .inr (.inr (.inr ⟨hwbusy, hwdone⟩))

theorem keylen_of_not_keyBad {i : Instr} {s : State} (h : keyBad i s = false) (hneeds : needsKey i = true) :
    s.keylen = 16#5 := by simpa [keyBad, hneeds, keyRdy] using h

theorem blklen_of_not_blkBad {i : Instr} {s : State} (h : blkBad i s = false) (hneeds : needsBlock i = true) :
    s.blklen = 16#5 := by simpa [blkBad, hneeds, blkRdy] using h

theorem isWrite_and_addr_of_writesCmd {p : Pins} (h : p.writesCmd = true) : p.isWrite = true ∧ p.addr = Port.cmd := by
  obtain ⟨hw, ha⟩ : p.isWrite = true ∧ locate p.addr = .cmd := by simpa [Pins.writesCmd] using h
  exact ⟨hw, eq_cmd_of_locate _ ha⟩

/-! ### The invariant -/

theorem coreInv_reset : CoreInv State.reset where
  running h := Bool.noConfusion h
  counting h := Bool.noConfusion h
  schedule h := Bool.noConfusion h
  noError _ := ⟨rfl, rfl⟩
  legalError h := Bool.noConfusion h
  keyMark := by decide
  blkMark := by decide

theorem CoreInv.sample {s : State} (h : CoreInv s) (p : Pins) : CoreInv (sample p s) := by
  obtain ⟨rs, d, he⟩ := sample_eq p s
  rw [he]
  exact ⟨h.running, h.counting, h.schedule, h.noError, h.legalError, h.keyMark, h.blkMark⟩

/-- Recording one of the listed errors keeps the invariant: the first one stays (R200). -/
theorem CoreInv.recorded {s : State} (h : CoreInv s) {code info : Byte} (hlegal : LegalError code info) :
    CoreInv (recorded code info s) := by
  refine ⟨h.running, h.counting, h.schedule, fun herr => Bool.noConfusion herr, fun _ => ?_, h.keyMark, h.blkMark⟩
  show LegalError (if s.err then s.errcode else code) (if s.err then s.errinfo else info)
  cases herr : s.err with
  | true => exact h.legalError herr
  | false => exact hlegal

theorem CoreInv.acknowledge {s : State} (h : CoreInv s) (v : Byte) : CoreInv (acknowledge v s) := by
  rw [acknowledge_eq]
  cases v.getLsbD 2 with
  | true => exact ⟨h.running, h.counting, h.schedule, fun _ => ⟨rfl, rfl⟩, fun herr => by simp at herr, h.keyMark, h.blkMark⟩
  | false =>
    exact ⟨h.running, h.counting, h.schedule, fun herr => h.noError (by simpa using herr),
      fun herr => h.legalError (by simpa using herr), h.keyMark, h.blkMark⟩

/-- The mark follows the counter of its stream port, up to 16 (R41, R74, R75). -/
theorem raiseMark_bounds {hi : Nat} {l : Len} (h : min l.toNat 16 ≤ hi ∧ hi ≤ 16) :
    min (incLen l).toNat 16 ≤ raiseMark hi l ∧ raiseMark hi l ≤ 16 := by
  rw [incLen_toNat]
  unfold raiseMark
  split <;> omega

theorem CoreInv.pushKey {s : State} (h : CoreInv s) (hb : s.busy = false) (v : Byte) : CoreInv (s.pushKey v) where
  running hbusy := absurd hbusy (Bool.eq_false_iff.1 hb)
  counting := h.counting
  schedule hks := Bool.noConfusion hks
  noError := h.noError
  legalError := h.legalError
  keyMark := raiseMark_bounds h.keyMark
  blkMark := h.blkMark

theorem CoreInv.pushBlk {s : State} (h : CoreInv s) (hb : s.busy = false) (v : Byte) : CoreInv (s.pushBlk v) where
  running hbusy := absurd hbusy (Bool.eq_false_iff.1 hb)
  counting := h.counting
  schedule := h.schedule
  noError := h.noError
  legalError := h.legalError
  keyMark := h.keyMark
  blkMark := raiseMark_bounds h.blkMark

/-- What a refused write records is one of the errors of R190: the low address bytes of the five ports. -/
theorem legalError_of_refusedPort {a : Addr} (ha : RefusedPort a) : LegalError 0x03#8 (a.extractLsb' 0 8) := by
  refine .inr (.inr ⟨rfl, ?_⟩)
  rcases ha with rfl | rfl | rfl | rfl | rfl <;> decide

theorem CoreInv.hostWrite {s : State} (h : CoreInv s) (p : Pins) : CoreInv (hostWrite p s) := by
  have hout := hostWriteOutcome p s
  generalize Machine.hostWrite p s = t at hout ⊢
  cases hout with
  | nothing => exact h
  | acknowledge => exact h.acknowledge _
  | refused _ ha => exact h.recorded (legalError_of_refusedPort ha)
  | keyin hb => exact h.pushKey hb _
  | blkin hb => exact h.pushBlk hb _
  | _ => exact ⟨h.running, h.counting, h.schedule, h.noError, h.legalError, h.keyMark, h.blkMark⟩

/-- CLR shortens the lengths of an idle core; without the key's bit the schedule stays that of the key (R183). -/
theorem CoreInv.clearLengths {s : State} (h : CoreInv s) (hb : s.busy = false) (b k : Bool) :
    CoreInv (clearLengths b k s) := by
  have hkey := h.keyMark
  have hblk := h.blkMark
  rw [clearLengths_eq]
  refine ⟨fun hbusy => absurd hbusy (Bool.eq_false_iff.1 hb), h.counting, ?_, h.noError, h.legalError, ?_, ?_⟩
  · cases k with
    | true => exact fun hks => Bool.noConfusion hks
    | false => exact h.schedule
  · cases k with
    | true => exact ⟨Nat.zero_le _, hkey.2⟩
    | false => exact hkey
  · cases b with
    | true => exact ⟨Nat.zero_le _, hblk.2⟩
    | false => exact hblk

/-- An accepted command is a busy one whose lengths are right, with a latency of at least 1 (R180, R235). -/
theorem CoreInv.accept {s : State} (h : CoreInv s) {c : Byte} {i : Instr} (hd : decode c = .command i)
    (hi : isBusyCommand i = true) (hkey : keyBad i s = false) (hblk : blkBad i s = false) : CoreInv (accept c s) where
  running _ := ⟨i, hd, hi, hkey, hblk⟩
  counting _ := latency_pos s c
  schedule := h.schedule
  noError := h.noError
  legalError := h.legalError
  keyMark := h.keyMark
  blkMark := h.blkMark

theorem CoreInv.countDown {s : State} (h : CoreInv s) (hc : 1 < s.seqCnt) :
    CoreInv { s with seqCnt := s.seqCnt - 1 } where
  running := h.running
  counting _ := Nat.le_sub_one_of_lt hc
  schedule := h.schedule
  noError := h.noError
  legalError := h.legalError
  keyMark := h.keyMark
  blkMark := h.blkMark

/-- The lengths an accepted command needs are still 16 when it runs (R184). -/
theorem CoreInv.lengths {s : State} (h : CoreInv s) (hb : s.busy = true) {i : Instr}
    (hd : decode s.seqOp = .command i) :
    (needsKey i = true → s.keylen = 16#5) ∧ (needsBlock i = true → s.blklen = 16#5) := by
  obtain ⟨j, hj, -, hkey, hblk⟩ := h.running hb
  rw [hd] at hj
  cases hj
  exact ⟨keylen_of_not_keyBad hkey, blklen_of_not_blkBad hblk⟩

/-- A completion that makes a schedule makes it of a 16-byte key, and one that writes `BLK` writes all of it. -/
theorem CoreInv.finish {s : State} (h : CoreInv s) {i : Instr} (hlen : needsKey i = true → s.keylen = 16#5) :
    CoreInv (completionPart i s).finish := by
  have hschedule := completionPart_schedule_cases i s
  have hblk := completionPart_blk_cases i s
  obtain ⟨hlo, hhi⟩ := h.blkMark
  obtain ⟨b, bhi, x, v, xd, p, he⟩ := completionPart_eq i s
  rw [he] at hschedule hblk ⊢
  refine ⟨fun hbusy => Bool.noConfusion hbusy, fun hbusy => Bool.noConfusion hbusy, fun hks => ?_, h.noError,
    h.legalError, h.keyMark, ?_⟩
  · rcases hschedule with ⟨hw, hv, hdef⟩ | ⟨hneeds, hw, -, hdef⟩
    · obtain ⟨hw', hlen', hdef'⟩ := h.schedule (hv.symm.trans hks)
      exact ⟨hw.trans hw', hlen', hdef.trans hdef'⟩
    · exact ⟨hw, hlen hneeds, hdef⟩
  · show min s.blklen.toNat 16 ≤ bhi ∧ bhi ≤ 16
    rcases hblk with ⟨-, hbhi⟩ | ⟨-, hbhi⟩
    · obtain rfl : bhi = s.blkHi := hbhi
      exact ⟨hlo, hhi⟩
    · obtain rfl : bhi = 16 := hbhi
      exact ⟨Nat.min_le_right _ _, Nat.le_refl _⟩

theorem CoreInv.resetEdge (s : State) : CoreInv (resetEdge s) := by
  rw [resetEdge_eq]
  exact ⟨coreInv_reset.running, coreInv_reset.counting, coreInv_reset.schedule, coreInv_reset.noError,
    coreInv_reset.legalError, coreInv_reset.keyMark, coreInv_reset.blkMark⟩

theorem CoreInv.of_step {s t : State} (h : CoreInv s) (hstep : step s = .next t) : CoreInv t := by
  have hsample := h.sample s.pins
  have hwrite := hsample.hostWrite s.pins
  cases stepOutcome hstep with
  | reset => exact CoreInv.resetEdge _
  | countDown _ hb hc =>
    obtain ⟨-, -, hcnt, -⟩ := afterAccess_keeps hb
    rw [← hcnt] at hc ⊢
    exact hwrite.countDown hc
  | complete _ hb _ i hd =>
    obtain ⟨hb', hop, -⟩ := afterAccess_keeps hb
    exact hwrite.finish (hwrite.lengths hb' (hop ▸ hd)).1
  | nop => exact hsample
  | clear hb b k => exact hsample.clearLengths (by rw [sample_busy, hb]) b k
  | accept _ _ _ i hd hi hkey hblk =>
    exact hsample.accept hd hi (by rw [keyBad_sample, hkey]) (by rw [blkBad_sample, hblk])
  | refuse _ c x hlegal => rw [raiseError_eq_recorded]; exact hsample.recorded hlegal
  | write => exact hwrite

/-! ### Progress -/

/-- A command byte of an idle core always has a meaning. -/
theorem command_isNext (c : Byte) (s : State) : ∃ t, command c s = .next t := by
  unfold command
  split
  · exact exec_isNext _ _
  · exact ⟨_, rfl⟩

/-- A busy core that runs an accepted command finds it in `SEQ.OP`, so no cycle faults. -/
theorem CoreInv.step_isNext {s : State} (h : CoreInv s) : ∃ t, step s = .next t := by
  cases hr : s.pins.rst with
  | true => exact ⟨_, step_of_rst s hr⟩
  | false =>
    cases hb : s.busy with
    | true =>
      obtain ⟨i, hd, hi, -⟩ := h.running hb
      rw [step_eq_exec hr hb hd hi]
      exact exec_isNext _ _
    | false =>
      cases hc : s.pins.writesCmd with
      | true => rw [step_of_command s hr hb hc]; exact command_isNext _ _
      | false => exact ⟨_, step_of_idle s hr hb hc⟩

/-! ### The statements -/

/-- Settles O33: only an acknowledgement changes a recorded error, and no command does. -/
theorem firstErrorWins : Obligations.FirstErrorWins := by
  intro s herr
  refine ⟨fun p hp => ?_, fun c => ?_⟩
  · obtain ⟨he, hcode, hinfo⟩ := sameErrors_hostWrite herr hp
    exact ⟨he.trans herr, hcode, hinfo⟩
  · obtain ⟨t, ht, he, hcode, hinfo⟩ := command_sameErrors herr c
    exact ⟨t, ht, he.trans herr, hcode, hinfo⟩

/-- Settles O40: `KEY` and its length change only by `KEYIN`, CLR K and reset, which all clear `KSVALID`. -/
theorem keyChangeInvalidatesTheSchedule : Obligations.KeyChangeInvalidatesTheSchedule := by
  intro s t h hchange
  rcases keyKeptOrInvalid_of_step h with ⟨hkey, hlen⟩ | hks
  · exact absurd hchange (by simp [hkey, hlen])
  · exact hks

/-- Settles O41: of all a cycle can do, only the acceptance of a command leaves an idle core busy. -/
theorem busyRisesOnlyByAcceptance : Obligations.BusyRisesOnlyByAcceptance := by
  intro s t h hb ht
  have hidle : ∀ u : State, u.busy = s.busy → u.busy = true → False := fun u hu hu' => by
    rw [hu, hb] at hu'; cases hu'
  cases stepOutcome h with
  | reset => cases ht
  | countDown _ hb' => rw [hb] at hb'; cases hb'
  | complete => cases ht
  | accept hr _ hc i hd hi hkey hblk =>
    obtain ⟨hw, ha⟩ := isWrite_and_addr_of_writesCmd hc
    exact ⟨hr, hw, ha, i, hd, hi, rfl, latency_pos _ _, keylen_of_not_keyBad hkey, blklen_of_not_blkBad hblk⟩
  | nop => exact (hidle _ (sample_busy _ _) ht).elim
  | clear _ b k => exact (hidle _ (by rw [clearLengths_eq]; exact sample_busy _ _) ht).elim
  | refuse => exact (hidle _ (by rw [raiseError_eq]; exact sample_busy _ _) ht).elim
  | write => exact (hidle _ (by rw [afterAccess, hostWrite_busy, sample_busy]) ht).elim

/-- Settles O42: a cycle resets, completes, accepts, or leaves `BUSY` alone and `DONE` up to an acknowledgement. -/
theorem doneBelongsToTheLastCommand : Obligations.DoneBelongsToTheLastCommand := by
  intro s t h
  rcases busy_done_of_step h with ⟨hr, hbt, hdt⟩ | ⟨hr, hbs, hc, hbt, hdt⟩ | ⟨hbs, hbt, hdt⟩ |
    ⟨hbusy, hdone | ⟨hw, ha, hv, hdt⟩⟩
  · simp [hr, hbt, hdt]
  · simp [hr, hbs, hc, hbt, hdt]
  · simp [hbs, hbt, hdt]
  · rw [hbusy, hdone]; cases s.busy <;> cases s.done <;> simp
  · rw [hbusy, hdt]; cases s.busy <;> simp [hw, ha, hv]

/-- Settles O50: after reset the core is idle, without a schedule, an error or a written byte. -/
theorem invariantHoldsAtReset : Obligations.InvariantHoldsAtReset := coreInv_reset

/-- Settles O51: each of the things a cycle can do keeps the invariant. -/
theorem stepKeepsTheInvariant : Obligations.StepKeepsTheInvariant := fun _ _ => CoreInv.of_step

/-- Settles O52: the one fault needs a busy core whose `SEQ.OP` holds no busy command, which the invariant excludes. -/
theorem nothingIsStuck : Obligations.NothingIsStuck := fun _ => CoreInv.step_isNext

end Sys2Proof.Machine
end

section
/-! PROOFS. Isolation: no command or read depends on a byte nothing has written (R41), a running command depends on the data
path and the sequencer only (R83, R230), it completes after `SEQ.CNT` cycles (R181), and so the cycle model agrees with
the transaction view (R237). -/

namespace Sys2Proof.Machine

/-! ### States that differ in unwritten bytes only (R41) -/

/-- The other state, as an update of the first. -/
theorem SameWritten.exists_eq {s s' : State} (h : SameWritten s s') : ∃ k b x,
    s' = { s with key := k, blk := b, w := x } ∧ (∀ i : Fin 16, i.val < s.keyHi → k[i] = s.key[i]) ∧
    (∀ i : Fin 16, i.val < s.blkHi → b[i] = s.blk[i]) ∧ (s.wDef = true → x = s.w) :=
  ⟨s'.key, s'.blk, s'.w, h⟩

/-- A block all of whose bytes have been written is the same in both. -/
theorem eq_of_written {a b : Block} {hi : Nat} (hhi : hi = 16) (h : ∀ i : Fin 16, i.val < hi → a[i] = b[i]) : a = b :=
  Vector.ext fun n hn => h ⟨n, hn⟩ (hhi ▸ hn)

theorem SameWritten.finish {s s' : State} (h : SameWritten s s') : SameWritten s.finish s'.finish := by
  obtain ⟨k, b, x, rfl, hk, hb, hx⟩ := h.exists_eq
  exact ⟨rfl, hk, hb, hx⟩

/-- A completion part answers states that differ in unwritten bytes only, if what it reads has been written. -/
theorem SameWritten.completionPart {s s' : State} (h : SameWritten s s') {i : Instr}
    (hkey : needsKey i = true → s.keyHi = 16) (hblk : needsBlock i = true → s.blkHi = 16)
    (hks : s.ksvalid = true → s.wDef = true) : SameWritten (completionPart i s) (completionPart i s') := by
  obtain ⟨k, b, x, rfl, hk, hb, hx⟩ := h.exists_eq
  have hform := completionForm i
  generalize Machine.completionPart i = c at hform ⊢
  cases hform with
  | nothing => exact h
  | keyAndBlock hneeds hneeds' f =>
    obtain rfl := eq_of_written (hkey hneeds) hk
    obtain rfl := eq_of_written (hblk hneeds') hb
    have huse : scheduleInUse { s with w := x } = scheduleInUse s := by
      rw [scheduleInUse, scheduleInUse]
      split
      case isTrue hv => exact hx (hks hv)
      case isFalse => rfl
    have hexpanded : expandedIfNeeded { s with w := x } = expandedIfNeeded s := by
      rw [expandedIfNeeded, huse, expandedIfNeeded]
    show SameWritten ((expandedIfNeeded s).setBlk (f s.blk (scheduleInUse s)))
      ((expandedIfNeeded { s with w := x }).setBlk (f s.blk (scheduleInUse { s with w := x })))
    rw [hexpanded, huse]
    exact .refl _
  | schedule hneeds f hf =>
    obtain rfl := eq_of_written (hkey hneeds) hk
    exact ⟨rfl, fun _ _ => rfl, hb, fun _ => rfl⟩
  | prod => exact ⟨rfl, hk, hb, hx⟩
  | blk hneeds f =>
    obtain rfl := eq_of_written (hblk hneeds) hb
    exact ⟨rfl, hk, fun _ _ => rfl, hx⟩

/-- Each busy cycle of a command answers states that differ in unwritten bytes only, if what it reads has been written. -/
theorem SameWritten.exec_of_busy {s s' : State} (h : SameWritten s s') {i : Instr} (hw : WellFormed i)
    (hi : isBusyCommand i = true) (hb : s.busy = true) (hkey : needsKey i = true → s.keyHi = 16)
    (hblk : needsBlock i = true → s.blkHi = 16) (hks : s.ksvalid = true → s.wDef = true) :
    ∃ t t', exec i s = .next t ∧ exec i s' = .next t' ∧ SameWritten t t' := by
  refine ⟨_, _, exec_eq_busyCommand i s hw hi, exec_eq_busyCommand i s' hw hi, ?_⟩
  have hpart := h.completionPart hkey hblk hks
  obtain ⟨k, b, x, rfl, hk, hbl, hx⟩ := h.exists_eq
  rw [busyCommand_of_busy _ _ _ hb, busyCommand_of_busy _ _ _ (by exact hb)]
  rcases Nat.lt_or_ge 1 s.seqCnt with hc | hc
  · rw [busyCycle_more _ _ hc, busyCycle_more _ _ (by exact hc)]
    exact ⟨rfl, hk, hbl, hx⟩
  · rw [busyCycle_last _ _ hc, busyCycle_last _ _ (by exact hc)]
    exact hpart.finish

/-- The issue of a command answers states that differ in unwritten bytes and the latency only. -/
theorem SameWritten.exec_of_idle {s s' : State} (h : SameWritten s s') {i : Instr} (hw : WellFormed i)
    (hb : s.busy = false) :
    ∃ t t', exec i s = .next t ∧ exec i s' = .next t' ∧ SameWritten { t with seqCnt := t'.seqCnt } t' := by
  obtain ⟨k, b, x, rfl, hk, hbl, hx⟩ := h.exists_eq
  cases hi : isBusyCommand i with
  | false =>
    cases i with
    | nop => exact ⟨_, _, exec_nop_of_idle hb, exec_nop_of_idle hb, rfl, hk, hbl, hx⟩
    | clr bm km =>
      refine ⟨_, _, exec_clr_of_idle bm km hb, exec_clr_of_idle bm km hb, ?_⟩
      rw [clearLengths_eq, clearLengths_eq]
      exact ⟨rfl, hk, hbl, hx⟩
    | _ => cases hi
  | true =>
    by_cases hbad : keyBad i s = true ∨ blkBad i s = true
    · exact ⟨_, _, exec_refused_of_badLength hw hi hb hbad, exec_refused_of_badLength hw hi hb hbad, rfl, hk, hbl, hx⟩
    · simp only [not_or, Bool.not_eq_true] at hbad
      obtain ⟨hkey, hblk⟩ := hbad
      obtain ⟨n, -, he⟩ := exec_accepted hw hi hb hkey hblk
      obtain ⟨n', -, he'⟩ := exec_accepted (s := { s with key := k, blk := b, w := x }) hw hi hb hkey hblk
      exact ⟨_, _, he, he', rfl, hk, hbl, hx⟩

/-- No address shows how many cycles are left. -/
theorem busRead_withSeqCnt (s : State) (n : Nat) (a : Addr) : busRead { s with seqCnt := n } a = busRead s a := by
  unfold busRead
  cases locate a <;> rfl

/-- Under the invariant a running command finds all bytes it reads written (R41, R184). -/
theorem CoreInv.written {s : State} (h : CoreInv s) (hb : s.busy = true) {i : Instr} (hd : decode s.seqOp = .command i) :
    (needsKey i = true → s.keyHi = 16) ∧ (needsBlock i = true → s.blkHi = 16) ∧ (s.ksvalid = true → s.wDef = true) := by
  obtain ⟨hkey, hblk⟩ := h.lengths hb hd
  have hmark : ∀ {l : Len} {hi : Nat}, min l.toNat 16 ≤ hi ∧ hi ≤ 16 → l = 16#5 → hi = 16 := by
    rintro l hi ⟨hlo, hhi⟩ rfl; exact Nat.le_antisymm hhi hlo
  refine ⟨fun hneeds => hmark h.keyMark (hkey hneeds), fun hneeds => hmark h.blkMark (hblk hneeds), fun hks => ?_⟩
  obtain ⟨-, -, hdef⟩ := h.schedule hks
  exact hdef

/-! ### One busy cycle of a running command (R181) -/

section
variable {s : State} {i : Instr}

theorem step_of_countDown (hr : s.pins.rst = false) (hb : s.busy = true) (hd : decode s.seqOp = .command i)
    (hi : isBusyCommand i = true) (hc : 1 < s.seqCnt) :
    step s = .next { afterAccess s with seqCnt := s.seqCnt - 1 } := by
  obtain ⟨-, -, hcnt, -⟩ := afterAccess_keeps hb
  rw [step_of_running s i hr hb hd (wellFormed_of_decode hd) hi, ← hcnt]
  exact congrArg _ (busyCycle_more _ _ (hcnt ▸ hc))

theorem step_of_completion (hr : s.pins.rst = false) (hb : s.busy = true) (hd : decode s.seqOp = .command i)
    (hi : isBusyCommand i = true) (hc : s.seqCnt ≤ 1) : step s = .next (completionPart i (afterAccess s)).finish := by
  obtain ⟨-, -, hcnt, -⟩ := afterAccess_keeps hb
  rw [step_of_running s i hr hb hd (wellFormed_of_decode hd) hi]
  exact congrArg _ (busyCycle_last _ _ (hcnt ▸ hc))

end

theorem SameData.finish {s t : State} (h : SameData s t) : SameData s.finish t.finish := h

/-- Two running commands alike in data and sequencer stay alike (R83, R230). -/
theorem step_alike {s₁ s₂ : State} {i : Instr} (hdata : SameData s₁ s₂) (hb₁ : s₁.busy = true) (hb₂ : s₂.busy = true)
    (hop : s₂.seqOp = s₁.seqOp) (hcnt : s₂.seqCnt = s₁.seqCnt) (hd : decode s₁.seqOp = .command i)
    (hi : isBusyCommand i = true) (hr₁ : s₁.pins.rst = false) (hr₂ : s₂.pins.rst = false) :
    ∃ t₁ t₂, step s₁ = .next t₁ ∧ step s₂ = .next t₂ ∧ SameData t₁ t₂ ∧ t₂.busy = t₁.busy ∧ t₂.seqOp = t₁.seqOp ∧
      t₂.seqCnt = t₁.seqCnt := by
  have hd₂ : decode s₂.seqOp = .command i := hop ▸ hd
  obtain ⟨hb₁', hop₁, hcnt₁, hdata₁⟩ := afterAccess_keeps hb₁
  obtain ⟨hb₂', hop₂, hcnt₂, hdata₂⟩ := afterAccess_keeps hb₂
  have hdata' : SameData (afterAccess s₁) (afterAccess s₂) := (hdata₁.symm.trans hdata).trans hdata₂
  have hop' : (afterAccess s₂).seqOp = (afterAccess s₁).seqOp := by rw [hop₂, hop, hop₁]
  rcases Nat.lt_or_ge 1 s₁.seqCnt with hc | hc
  · refine ⟨_, _, step_of_countDown hr₁ hb₁ hd hi hc, step_of_countDown hr₂ hb₂ hd₂ hi (hcnt ▸ hc), hdata',
      hb₂'.trans hb₁'.symm, hop', ?_⟩
    show s₂.seqCnt - 1 = s₁.seqCnt - 1
    rw [hcnt]
  · obtain ⟨hpop₁, hpcnt₁⟩ := completionPart_seq i (afterAccess s₁)
    obtain ⟨hpop₂, hpcnt₂⟩ := completionPart_seq i (afterAccess s₂)
    refine ⟨_, _, step_of_completion hr₁ hb₁ hd hi hc, step_of_completion hr₂ hb₂ hd₂ hi (hcnt ▸ hc),
      (sameData_completionPart i (wellFormed_of_decode hd) hi hdata').finish, rfl, ?_, ?_⟩
    · rw [State.finish_seqOp, State.finish_seqOp, hpop₁, hpop₂, hop']
    · rw [State.finish_seqCnt, State.finish_seqCnt, hpcnt₁, hpcnt₂, hcnt₁, hcnt₂, hcnt]

/-! ### The access of a cycle, and the host's inputs along a run (log 4) -/

theorem hostWrite_host (p : Pins) (s : State) : (hostWrite p s).host = s.host := by
  have h := hostWriteOutcome p s
  generalize hostWrite p s = t at h ⊢
  cases h with
  | acknowledge => rw [acknowledge_eq]
  | _ => rfl

theorem afterAccess_host (s : State) : (afterAccess s).host = s.host.tail := by
  obtain ⟨-, -, -, -, hhost, -⟩ := sample_keeps s.pins s
  rw [afterAccess, hostWrite_host, hhost]

/-- A cycle without a write records no error (R64). -/
theorem sameErrors_afterAccess {s : State} (h : s.pins.isWrite = false) : SameErrors s (afterAccess s) := by
  obtain ⟨-, -, -, -, -, herr, hcode, hinfo, -⟩ := sample_keeps s.pins s
  rw [afterAccess_of_not_write h]
  exact ⟨herr, hcode, hinfo⟩

/-- What holds of the next `n` inputs, and of a silent cycle, holds of the pins after `k < n` cycles. -/
theorem pins_of_take {P : Pins → Prop} (hidle : P Pins.idle) {s t : State} {k n : Nat} (h : ∀ p ∈ s.host.take n, P p)
    (hk : k < n) (ht : t.host = s.host.drop k) : P t.pins := by
  rw [State.pins, ht, List.headD_eq_head?_getD, List.head?_drop]
  cases hget : s.host[k]? with
  | none => exact hidle
  | some p =>
    obtain ⟨hlt, rfl⟩ := List.getElem?_eq_some_iff.1 hget
    exact h _ (List.mem_take_iff_getElem.2 ⟨k, by omega, rfl⟩)

theorem run_succ_of_step (M : Host.Core) {k : Nat} {s t u : M.State} (h : M.run k s = .next t) (hstep : M.step t = .next u) :
    M.run (k + 1) s = .next u := by
  rw [run_append M k 1 s t h, run_of_next M 0 t u hstep, Host.Core.run]

/-! ### A whole run of a command (R181, R235) -/

/-- After `k` cycles of `s`, `t` still runs the command of `s`: nothing of the data path has changed. -/
structure StillRuns (s : State) (k : Nat) (t : State) : Prop where
  busy : t.busy = true
  op : t.seqOp = s.seqOp
  cnt : t.seqCnt = s.seqCnt - k
  data : SameData s t
  host : t.host = s.host.drop k
  errors : (∀ p ∈ s.host.take k, p.isWrite = false) → SameErrors s t

/-- One more access, after `k` cycles: what `StillRuns` says of the data, the inputs and the errors. -/
theorem StillRuns.afterAccess {s t : State} {k : Nat} (h : StillRuns s k t) :
    SameData s (afterAccess t) ∧ (afterAccess t).host = s.host.drop (k + 1) ∧
    ((∀ p ∈ s.host.take (k + 1), p.isWrite = false) → SameErrors s (afterAccess t)) := by
  obtain ⟨-, -, -, hdata⟩ := afterAccess_keeps h.busy
  refine ⟨h.data.trans hdata, by rw [afterAccess_host, h.host, List.tail_drop], fun hnone => ?_⟩
  have hwrite : t.pins.isWrite = false := pins_of_take (P := fun p => p.isWrite = false) rfl hnone (Nat.lt_succ_self k) h.host
  exact (h.errors fun p hp => hnone p (List.take_subset_take_left _ (Nat.le_succ k) hp)).trans
    (sameErrors_afterAccess hwrite)

section
variable {s : State} {i : Instr} (hb : s.busy = true) (hd : decode s.seqOp = .command i) (hi : isBusyCommand i = true)
  (hreset : NoResetIn s.seqCnt s)
include hb hd hi hreset

theorem run_of_running {k : Nat} (hk : k < s.seqCnt) :
    ∃ t, Host.Core.run core k s = .next t ∧ StillRuns s k t := by
  induction k with
  | zero => exact ⟨s, rfl, hb, rfl, rfl, .refl s, rfl, fun _ => .refl s⟩
  | succ k ih =>
    obtain ⟨t, hrun, ht⟩ := ih (by omega)
    have hrst : t.pins.rst = false := pins_of_take (P := fun p => p.rst = false) rfl hreset (by omega : k < s.seqCnt) ht.host
    have hcnt : 1 < t.seqCnt := by rw [ht.cnt]; omega
    obtain ⟨hb', hop, -, -⟩ := afterAccess_keeps ht.busy
    obtain ⟨hdata, hhost, herrors⟩ := ht.afterAccess
    exact ⟨_, run_succ_of_step core hrun (step_of_countDown hrst ht.busy (ht.op ▸ hd) hi hcnt), hb', hop.trans ht.op,
      by rw [ht.cnt, Nat.sub_sub], hdata, hhost, herrors⟩

/-- After `SEQ.CNT` cycles without reset the completion part has acted on the data of the start. -/
theorem run_to_completion (hc : 1 ≤ s.seqCnt) :
    ∃ u, Host.Core.run core s.seqCnt s = .next (completionPart i u).finish ∧ SameData s u ∧
      u.host = s.host.drop s.seqCnt ∧ ((∀ p ∈ s.host.take s.seqCnt, p.isWrite = false) → SameErrors s u) := by
  obtain ⟨n, hn⟩ := Nat.exists_eq_add_of_le' hc
  obtain ⟨t, hrun, ht⟩ := run_of_running hb hd hi hreset (k := n) (by omega)
  have hrst : t.pins.rst = false := pins_of_take (P := fun p => p.rst = false) rfl hreset (by omega : n < s.seqCnt) ht.host
  have hcnt : t.seqCnt ≤ 1 := by rw [ht.cnt]; omega
  rw [hn]
  exact ⟨_, run_succ_of_step core hrun (step_of_completion hrst ht.busy (ht.op ▸ hd) hi hcnt), ht.afterAccess⟩

end

/-! ### The transaction view (R237) -/

theorem completeNow_of_busy {i : Instr} (hw : WellFormed i) (hi : isBusyCommand i = true) {s : State}
    (hb : s.busy = true) : completeNow i s = .next (completionPart i { s with seqCnt := 1 }).finish :=
  exec_last i _ hw hi hb rfl

/-- An accepted command is the one the sequencer finds (R38, R180). -/
theorem decode_accepted {i : Instr} (hw : WellFormed i) (n : Nat) (s : State) :
    decode (accepted (encode i) n s).seqOp = .command i := decode_encode hw

/-- A command whose lengths are right is performed: its completion part acts on the data of the start. -/
theorem perform_of_ready {i : Instr} (hw : WellFormed i) (hi : isBusyCommand i = true) {s : State} (hb : s.busy = false)
    (hkey : keyBad i s = false) (hblk : blkBad i s = false) :
    ∃ u, perform i s = .next (completionPart i u).finish ∧ SameData s u ∧ SameErrors s u := by
  obtain ⟨n, -, he⟩ := exec_accepted hw hi hb hkey hblk
  refine ⟨{ accepted (encode i) n s with seqCnt := 1 }, ?_, .refl s, .refl s⟩
  rw [perform, he]
  exact completeNow_of_busy hw hi rfl

/-! ### The statements -/

/-- Settles O53: a running command's bytes are written by the invariant; the issue of a command reads none. -/
theorem commandsReadOnlyWrittenBytes : Obligations.CommandsReadOnlyWrittenBytes := by
  intro s s' i hinv hsame
  refine ⟨hsame.busRead_eq, fun hb hd => ?_, fun hb hw => ?_⟩
  · obtain ⟨hkey, hblk, hks⟩ := hinv.written hb hd
    obtain ⟨j, hj, hi, -⟩ := hinv.running hb
    obtain rfl : i = j := by rw [hd] at hj; cases hj; rfl
    obtain ⟨t, t', ht, ht', hsame'⟩ := hsame.exec_of_busy (wellFormed_of_decode hd) hi hb hkey hblk hks
    exact ⟨hkey, hblk, hks, t, t', ht, ht', hsame', hsame'.busRead_eq⟩
  · obtain ⟨t, t', ht, ht', hsame'⟩ := hsame.exec_of_idle hw hb
    exact ⟨t, t', ht, ht', hsame', fun a => (hsame'.busRead_eq a).trans (busRead_withSeqCnt t _ a)⟩

/-- Settles O54: cycle by cycle the command counts down, and the last one completes as `completeNow` does. -/
theorem runningCommandCompletes : Obligations.RunningCommandCompletes := by
  intro s i hb hc hd hi hreset
  refine ⟨fun k hk => ?_, ?_⟩
  · obtain ⟨t, hrun, ht⟩ := run_of_running hb hd hi hreset hk
    exact ⟨t, hrun, ht.busy, ht.cnt, ht.data⟩
  · obtain ⟨u, hrun, hdata, -⟩ := run_to_completion hb hd hi hreset hc
    have hw := wellFormed_of_decode hd
    have hdata' : SameData { s with seqCnt := 1 } u := hdata
    exact ⟨_, _, hrun, completeNow_of_busy hw hi hb, rfl, rfl, (sameData_completionPart i hw hi hdata').finish⟩

/-- Settles O55: the first step accepts the command, which then runs for its latency and completes on the same data as the
transaction does. -/
theorem cyclesRefineTransactions : Obligations.CyclesRefineTransactions := by
  intro s i hw hi hb hkey hblk hp
  obtain ⟨n, hn, he⟩ := exec_accepted (s := { s with host := s.host.tail }) hw hi hb hkey hblk
  have hstep := (stepIssuesTheDecodedCommand s _ i hb hp (decode_encode hw)).trans he
  have hrun1 := run_of_next core 0 _ _ hstep
  have hd := decode_accepted hw n { s with host := s.host.tail }
  refine ⟨_, hstep, rfl, hn, fun hreset => ⟨fun k hk => ?_, ?_⟩⟩
  · obtain ⟨t, hrun, ht⟩ := run_of_running rfl hd hi hreset hk
    exact ⟨t, (run_append core 1 k _ _ hrun1).trans hrun, ht.busy⟩
  · obtain ⟨u, hrun, hdata, -⟩ := run_to_completion rfl hd hi hreset hn
    obtain ⟨u', hperform, hdata', -⟩ := perform_of_ready hw hi hb hkey hblk
    have hstart : SameData s u := hdata
    exact ⟨_, _, (run_append core 1 n _ _ hrun1).trans hrun, hperform, rfl, rfl,
      (sameData_completionPart i hw hi (hdata'.symm.trans hstart)).finish⟩

/-- Settles O56: the accesses leave data and sequencer alone, and the busy cycle reads nothing else. -/
theorem hostCannotDisturbARunningCommand : Obligations.HostCannotDisturbARunningCommand := fun _ _ _ => step_alike

end Sys2Proof.Machine
end

section
/-! PROOFS. Whole sequences: the unit commands of ENC and DEC (R166), the load sequences of the host (R110), and a block
transformed through the bus (R111). -/

namespace Sys2Proof.Machine

/-! ### The unit commands, by their completion parts (R166) -/

/-- The completion parts of a list of commands, one after the other. -/
def completeAll (l : List Instr) (s : State) : State := l.foldl (fun t i => completionPart i t) s

theorem completeAll_cons (i : Instr) (l : List Instr) (s : State) :
    completeAll (i :: l) s = completeAll l (completionPart i s) := rfl

theorem completeAll_append (l l' : List Instr) (s : State) : completeAll (l ++ l') s = completeAll l' (completeAll l s) :=
  List.foldl_append

theorem completeAll_nil (s : State) : completeAll [] s = s := rfl

section
variable (s : State) (b : Block)

theorem completionPart_subb_setBlk : completionPart .subb (s.setBlk b) = s.setBlk (subBytes b) := rfl
theorem completionPart_isubb_setBlk : completionPart .isubb (s.setBlk b) = s.setBlk (invSubBytes b) := rfl
theorem completionPart_shr_setBlk : completionPart .shr (s.setBlk b) = s.setBlk (shiftRows b) := rfl
theorem completionPart_ishr_setBlk : completionPart .ishr (s.setBlk b) = s.setBlk (invShiftRows b) := rfl
theorem completionPart_mixc_setBlk : completionPart .mixc (s.setBlk b) = s.setBlk (mixColumns b) := rfl
theorem completionPart_imixc_setBlk : completionPart .imixc (s.setBlk b) = s.setBlk (invMixColumns b) := rfl

end

/-- The round index of ARK for a round. -/
def roundArg (k : Fin 11) : BitVec 4 := BitVec.ofNat 4 k.val

theorem roundIndex_roundArg : ∀ k : Fin 11, roundIndex (roundArg k) = some k := by decide

/-- ARK first expands the key if needed (R153). -/
theorem completionPart_ark_roundArg (k : Fin 11) (s : State) : completionPart (.ark (roundArg k)) s =
    (expandedIfNeeded s).setBlk (addRoundKey s.blk (scheduleInUse s) k) := by
  simp only [completionPart, roundIndex_roundArg, completeArk_eq]

section
variable {s : State} (hks : s.ksvalid = true)
include hks

theorem expandedIfNeeded_of_valid : expandedIfNeeded s = s := by
  rw [← ensureSchedule_eq_expandedIfNeeded, ensureSchedule_of_valid s hks]

/-- With a valid schedule ARK combines the block with its round key and nothing else. -/
theorem completionPart_ark_of_valid (k : Fin 11) (b : Block) : completionPart (.ark (roundArg k)) (s.setBlk b) =
    s.setBlk (addRoundKey b s.w k) := by
  have hks' : (s.setBlk b).ksvalid = true := hks
  have huse : scheduleInUse (s.setBlk b) = s.w := by rw [scheduleInUse, if_pos hks', State.setBlk_w]
  rw [completionPart_ark_roundArg, expandedIfNeeded_of_valid hks', huse]; rfl

theorem completeAll_encRound (k : Fin 11) (b : Block) :
    completeAll (encRoundCommands (roundArg k)) (s.setBlk b) = s.setBlk (cipherRound s.w b k) := by
  simp only [encRoundCommands, completeAll_cons, completeAll_nil, completionPart_subb_setBlk, completionPart_shr_setBlk,
    completionPart_mixc_setBlk, completionPart_ark_of_valid hks, cipherRound]

theorem completeAll_decRound (k : Fin 11) (b : Block) :
    completeAll (decRoundCommands (roundArg k)) (s.setBlk b) = s.setBlk (invCipherRound s.w b k) := by
  simp only [decRoundCommands, completeAll_cons, completeAll_nil, completionPart_isubb_setBlk,
    completionPart_ishr_setBlk, completionPart_imixc_setBlk, completionPart_ark_of_valid hks, invCipherRound]

end

/-- Rounds whose commands perform a round function perform its iteration. -/
theorem completeAll_rounds {commands : BitVec 4 → List Instr} {round : Block → Fin 11 → Block} {s : State}
    (hround : ∀ k b, completeAll (commands (roundArg k)) (s.setBlk b) = s.setBlk (round b k)) (ks : List (Fin 11))
    (b : Block) : completeAll ((ks.map roundArg).flatMap commands) (s.setBlk b) = s.setBlk (ks.foldl round b) := by
  induction ks generalizing b with
  | nil => rfl
  | cons k ks ih => rw [List.map_cons, List.flatMap_cons, completeAll_append, hround, ih, List.foldl_cons]

/-- The list of R166, with the rounds of R160 named. -/
theorem encCommands_eq : encCommands = .ark (roundArg 0) ::
    ((([1, 2, 3, 4, 5, 6, 7, 8, 9].map roundArg).flatMap encRoundCommands) ++ [.subb, .shr, .ark (roundArg 10)]) := by
  decide

/-- The list of R166, with the rounds of R161 named. -/
theorem decCommands_eq : decCommands = .ark (roundArg 10) :: .ishr :: .isubb ::
    ((([9, 8, 7, 6, 5, 4, 3, 2, 1].map roundArg).flatMap decRoundCommands) ++ [.ark (roundArg 0)]) := by
  decide

/-- The unit commands of ENC complete as ENC does (R160, R162). -/
theorem completeAll_encCommands (s : State) : completeAll encCommands s = completionPart .enc s := by
  have hks : (expandedIfNeeded s).ksvalid = true := rfl
  have hw : (expandedIfNeeded s).w = scheduleInUse s := rfl
  rw [encCommands_eq, completeAll_cons, completionPart_ark_roundArg, completeAll_append,
    completeAll_rounds (completeAll_encRound hks)]
  simp only [completeAll_cons, completeAll_nil, completionPart_subb_setBlk, completionPart_shr_setBlk,
    completionPart_ark_of_valid hks, hw, completionPart_enc, cipher]

/-- The unit commands of DEC complete as DEC does (R161, R163). -/
theorem completeAll_decCommands (s : State) : completeAll decCommands s = completionPart .dec s := by
  have hks : (expandedIfNeeded s).ksvalid = true := rfl
  have hw : (expandedIfNeeded s).w = scheduleInUse s := rfl
  rw [decCommands_eq, completeAll_cons, completionPart_ark_roundArg, completeAll_cons, completionPart_ishr_setBlk,
    completeAll_cons, completionPart_isubb_setBlk, completeAll_append, completeAll_rounds (completeAll_decRound hks)]
  simp only [completeAll_cons, completeAll_nil, completionPart_ark_of_valid hks, hw, completionPart_dec, invCipher]

/-! ### Lists of commands, each waited for (R166, R237) -/

theorem isBusy_and_wellFormed_of_mem_encCommands : ∀ i ∈ encCommands, wellFormed i = true ∧ isBusyCommand i = true := by
  decide

theorem isBusy_and_wellFormed_of_mem_decCommands : ∀ i ∈ decCommands, wellFormed i = true ∧ isBusyCommand i = true := by
  decide

theorem sameData_completeAll {l : List Instr} (hl : ∀ i ∈ l, wellFormed i = true ∧ isBusyCommand i = true) {s t : State}
    (h : SameData s t) : SameData (completeAll l s) (completeAll l t) := by
  induction l generalizing s t with
  | nil => exact h
  | cons i l ih =>
    obtain ⟨hi, hl⟩ := List.forall_mem_cons.1 hl
    exact ih hl (sameData_completionPart i ((wellFormed_iff i).1 hi.1) hi.2 h)

theorem not_keyBad_of_keylen {s : State} (h : s.keylen = 16#5) (i : Instr) : keyBad i s = false := by
  simp [keyBad, keyRdy, h]

theorem not_blkBad_of_blklen {s : State} (h : s.blklen = 16#5) (i : Instr) : blkBad i s = false := by
  simp [blkBad, blkRdy, h]

/-- A command whose lengths are right leaves the data its completion part makes, an idle core and no error. -/
theorem perform_of_loaded {i : Instr} (hw : WellFormed i) (hi : isBusyCommand i = true) {s : State} (hb : s.busy = false)
    (hkey : s.keylen = 16#5) (hblk : s.blklen = 16#5) :
    ∃ t, perform i s = .next t ∧ SameData (completionPart i s) t ∧ t.busy = false ∧ t.err = s.err := by
  obtain ⟨u, hperform, hdata, herr, -⟩ :=
    perform_of_ready hw hi hb (not_keyBad_of_keylen hkey i) (not_blkBad_of_blklen hblk i)
  exact ⟨_, hperform, sameData_completionPart i hw hi hdata, rfl, (completionPart_err i u).trans herr⟩

/-- A list of busy commands on a loaded core leaves the data its completion parts make. -/
theorem performAll_of_loaded {l : List Instr} (hl : ∀ i ∈ l, wellFormed i = true ∧ isBusyCommand i = true) {s : State}
    (hb : s.busy = false) (hkey : s.keylen = 16#5) (hblk : s.blklen = 16#5) :
    ∃ u, performAll l s = .next u ∧ SameData (completeAll l s) u ∧ u.busy = false ∧ u.err = s.err := by
  induction l generalizing s with
  | nil => exact ⟨s, rfl, .refl s, hb, rfl⟩
  | cons i l ih =>
    obtain ⟨⟨hw, hi⟩, hl⟩ := List.forall_mem_cons.1 hl
    obtain ⟨t, ht, hdata, hbt, herr⟩ := perform_of_loaded ((wellFormed_iff i).1 hw) hi hb hkey hblk
    obtain ⟨hkeylen, hblklen⟩ := completionPart_lengths i s
    obtain ⟨-, hkeylen', -, hblklen', -⟩ := id hdata
    obtain ⟨u, hu, hdata', hbu, herr'⟩ := ih hl hbt (hkeylen'.trans (hkeylen.trans hkey))
      (hblklen'.trans (hblklen.trans hblk))
    refine ⟨u, ?_, (sameData_completeAll hl hdata).trans hdata', hbu, herr'.trans herr⟩
    rw [performAll, ht]; exact hu

/-! ### The load sequences (R74, R75, R110) -/

/-- A run along a sequence of states each of which steps to the next. -/
theorem run_of_chain (M : Host.Core) (f : Nat → M.State) {n : Nat} (h : ∀ k < n, M.step (f k) = .next (f (k + 1))) :
    M.run n (f 0) = .next (f n) := by
  induction n with
  | zero => rfl
  | succ n ih => exact run_succ_of_step M (ih fun k hk => h k (Nat.lt_succ_of_lt hk)) (h n (Nat.lt_succ_self n))

/-- The first `n` bytes of `a` over those of `old`. -/
def overwritten (old a : Block) (n : Nat) : Block := Vector.ofFn fun i : Fin 16 => if i.val < n then a[i] else old[i]

theorem overwritten_zero (old a : Block) : overwritten old a 0 = old :=
  Vector.ext fun n hn => by simp [overwritten]

theorem overwritten_sixteen (old a : Block) : overwritten old a 16 = a :=
  Vector.ext fun n hn => by simp [overwritten]

/-- The next byte of `a` goes where the counter points (R74, R75). -/
theorem storeByte_overwritten (old a : Block) {n : Nat} (hn : n < 16) :
    storeByte (overwritten old a n) (BitVec.ofNat 5 n) a[n] = overwritten old a (n + 1) := by
  refine Vector.ext fun m hm => ?_
  have hlen : (BitVec.ofNat 5 n).toNat = n := by rw [BitVec.toNat_ofNat]; omega
  rw [storeByte_getElem, hlen]
  simp only [overwritten, Vector.getElem_ofFn, Fin.getElem_fin]
  by_cases hmn : n = m
  · subst hmn; rw [if_pos rfl, if_pos (Nat.lt_succ_self n)]
  · rw [if_neg hmn]
    by_cases hlt : m < n
    · rw [if_pos hlt, if_pos (Nat.lt_succ_of_lt hlt)]
    · rw [if_neg hlt, if_neg (by omega)]

theorem incLen_ofNat {n : Nat} (hn : n < 16) : incLen (BitVec.ofNat 5 n) = BitVec.ofNat 5 (n + 1) := by
  refine BitVec.eq_of_toNat_eq ?_
  simp only [incLen_toNat, BitVec.toNat_ofNat]
  omega

theorem raiseMark_max (hi : Nat) {n : Nat} (hn : n < 16) :
    raiseMark (max hi n) (BitVec.ofNat 5 n) = max hi (n + 1) := by
  have hlen : (BitVec.ofNat 5 n).toNat = n := by rw [BitVec.toNat_ofNat]; omega
  rw [raiseMark, hlen, if_pos hn]
  omega

/-- The `n`-th input of a sequence of writes of the bytes of `a` to a port. -/
theorem headD_drop_writes (port : Addr) (a : Block) (rest : List Pins) {n : Nat} (hn : n < 16) :
    ((a.toList.map (Pins.write port) ++ rest).drop n).headD Pins.idle = Pins.write port a[n] := by
  rw [List.headD_eq_head?_getD, List.head?_drop, List.getElem?_append_left (by simpa using hn)]
  simp [hn]

theorem drop_writes_sixteen (port : Addr) (a : Block) (rest : List Pins) :
    (a.toList.map (Pins.write port) ++ rest).drop 16 = rest := by
  rw [List.drop_append_of_le_length (by simp), List.drop_of_length_le (by simp), List.nil_append]

/-- `s` when CLR K and the first `n` bytes of the key `a` have been taken in, with `rest` after the sequence. -/
def keyLoading (s : State) (a : Block) (rest : List Pins) (n : Nat) : State :=
  { s with key := overwritten s.key a n, keylen := BitVec.ofNat 5 n, ksvalid := false, keyHi := max s.keyHi n,
           host := (a.toList.map (Pins.write Port.keyin) ++ rest).drop n }

/-- `s` when CLR B and the first `n` bytes of the block `a` have been taken in, with `rest` after the sequence. -/
def blkLoading (s : State) (a : Block) (rest : List Pins) (n : Nat) : State :=
  { s with blk := overwritten s.blk a n, blklen := BitVec.ofNat 5 n, blkHi := max s.blkHi n,
           host := (a.toList.map (Pins.write Port.blkin) ++ rest).drop n }

section
variable {s : State} (hb : s.busy = false) (a : Block) (rest : List Pins)
include hb

theorem step_keyLoading {n : Nat} (hn : n < 16) :
    step (keyLoading s a rest n) = .next (keyLoading s a rest (n + 1)) := by
  rw [step_of_keyin (s := keyLoading s a rest n) hb (headD_drop_writes Port.keyin a rest hn)]
  simp only [keyLoading, State.pushKey, storeByte_overwritten s.key a hn, incLen_ofNat hn, raiseMark_max _ hn,
    List.tail_drop]

theorem step_blkLoading {n : Nat} (hn : n < 16) :
    step (blkLoading s a rest n) = .next (blkLoading s a rest (n + 1)) := by
  rw [step_of_blkin (s := blkLoading s a rest n) hb (headD_drop_writes Port.blkin a rest hn)]
  simp only [blkLoading, State.pushBlk, storeByte_overwritten s.blk a hn, incLen_ofNat hn, raiseMark_max _ hn,
    List.tail_drop]

/-- A line `CMD` of the host is the command's meaning, with the line used up (R109, R180). -/
theorem step_of_cmdLine {i : Instr} (hw : WellFormed i) {l : List Pins} (hh : s.host = cmdLine i :: l) :
    step s = exec i { s with host := l } := by
  have hp : s.pins = Pins.write Port.cmd (encode i) := by rw [State.pins, hh]; rfl
  rw [stepIssuesTheDecodedCommand s _ _ hb hp (decode_encode hw), hh, List.tail_cons]

theorem step_of_clrLine {b k : Bool} {l : List Pins} (hh : s.host = cmdLine (.clr b k) :: l) :
    step s = .next (clearLengths b k { s with host := l }) :=
  (step_of_cmdLine hb (i := .clr b k) trivial hh).trans (exec_clr_of_idle b k (s := { s with host := l }) hb)

theorem run_ldkey (hh : s.host = ldkey a ++ rest) :
    Host.Core.run core 17 s = .next { s with key := a, keylen := 16#5, ksvalid := false, keyHi := max s.keyHi 16,
                                             host := rest } := by
  have hstart : step s = .next (keyLoading s a rest 0) := by
    rw [step_of_clrLine hb hh, keyLoading, overwritten_zero, clearLengths_eq, Nat.max_zero]; rfl
  have hend : keyLoading s a rest 16 = { s with key := a, keylen := 16#5, ksvalid := false, keyHi := max s.keyHi 16,
                                                host := rest } := by
    rw [keyLoading, overwritten_sixteen, drop_writes_sixteen]
  rw [← hend]
  exact (run_of_next core 16 _ _ hstart).trans
    (run_of_chain core (keyLoading s a rest) fun n hn => step_keyLoading hb a rest hn)

theorem run_ldblk (hh : s.host = ldblk a ++ rest) :
    Host.Core.run core 17 s = .next { s with blk := a, blklen := 16#5, blkHi := max s.blkHi 16, host := rest } := by
  have hstart : step s = .next (blkLoading s a rest 0) := by
    rw [step_of_clrLine hb hh, blkLoading, overwritten_zero, clearLengths_eq, Nat.max_zero]; rfl
  have hend : blkLoading s a rest 16 = { s with blk := a, blklen := 16#5, blkHi := max s.blkHi 16, host := rest } := by
    rw [blkLoading, overwritten_sixteen, drop_writes_sixteen]
  rw [← hend]
  exact (run_of_next core 16 _ _ hstart).trans
    (run_of_chain core (blkLoading s a rest) fun n hn => step_blkLoading hb a rest hn)

end

/-! ### A block through the bus (R111) -/

/-- `s` when the key `k` and the block `p` have been loaded, the inputs that follow being `rest`. -/
def loaded (s : State) (k p : Block) (rest : List Pins) : State :=
  { s with key := k, keylen := 16#5, ksvalid := false, keyHi := max s.keyHi 16, blk := p, blklen := 16#5,
           blkHi := max s.blkHi 16, host := rest }

/-- Loading a key and a block and issuing a command takes 35 cycles, after which the command runs. -/
theorem run_load_and_issue {i : Instr} (hw : WellFormed i) (hi : isBusyCommand i = true) {s : State} (hb : s.busy = false)
    {k p : Block} {rest : List Pins} (hh : s.host = ldkey k ++ (ldblk p ++ (cmdLine i :: rest))) :
    ∃ n, 1 ≤ n ∧ Host.Core.run core 35 s = .next (accepted (encode i) n (loaded s k p rest)) := by
  have hloaded : Host.Core.run core 34 s = .next (loaded s k p (cmdLine i :: rest)) :=
    (run_append core 17 17 _ _ (run_ldkey hb k _ hh)).trans (run_ldblk (by exact hb) p _ rfl)
  obtain ⟨n, hn, he⟩ := exec_accepted (s := loaded s k p rest) hw hi hb (not_keyBad_of_keylen rfl i)
    (not_blkBad_of_blklen rfl i)
  have hissue := (step_of_cmdLine (s := loaded s k p (cmdLine i :: rest)) hb hw rfl).trans he
  exact ⟨n, hn, run_succ_of_step core hloaded hissue⟩

/-- What a command that transforms the block leaves when it completes on a core whose schedule is not valid: the key
expanded, the block transformed under it, both readable (R135, R160 to R163). -/
theorem transformed_of_completionPart {i : Instr} {f : Block → Schedule → Block}
    (hpart : ∀ s, completionPart i s = (expandedIfNeeded s).setBlk (f s.blk (scheduleInUse s))) {u : State}
    (hks : u.ksvalid = false) :
    (completionPart i u).finish.key = u.key ∧ (completionPart i u).finish.w = expandKey u.key ∧
    (completionPart i u).finish.ksvalid = true ∧ (completionPart i u).finish.blk = f u.blk (expandKey u.key) ∧
    (completionPart i u).finish.blkHi = 16 ∧ (completionPart i u).finish.host = u.host := by
  have huse : scheduleInUse u = expandKey u.key := by rw [scheduleInUse, hks]; rfl
  rw [hpart, huse]
  exact ⟨rfl, huse, rfl, rfl, rfl, rfl⟩

/-- A command that transforms the block, from the load sequences to its completion. -/
theorem run_transform {i : Instr} (hi : NeedsKeyAndBlock i) {f : Block → Schedule → Block}
    (hpart : ∀ s, completionPart i s = (expandedIfNeeded s).setBlk (f s.blk (scheduleInUse s))) {s : State}
    (hb : s.busy = false) {k p : Block} {rest : List Pins}
    (hh : s.host = ldkey k ++ (ldblk p ++ (cmdLine i :: rest))) :
    ∃ a, Host.Core.run core 35 s = .next a ∧ a.busy = true ∧ a.seqOp = encode i ∧ 1 ≤ a.seqCnt ∧ a.host = rest ∧
      ((∀ q ∈ rest.take a.seqCnt, q.rst = false) →
      ∃ t, Host.Core.run core (35 + a.seqCnt) s = .next t ∧ t.busy = false ∧ t.done = true ∧
        t.host = rest.drop a.seqCnt ∧ t.key = k ∧ t.w = expandKey k ∧ t.ksvalid = true ∧ t.blk = f p (expandKey k) ∧
        (∀ j : Fin 16, busRead t (BitVec.ofNat 10 (0x020 + j.val)) = .byte t.blk[j]) ∧
        ((∀ q ∈ rest.take a.seqCnt, q.isWrite = false) → SameErrors s t)) := by
  obtain ⟨n, hn, hrun⟩ := run_load_and_issue hi.wellFormed hi.busy hb hh
  refine ⟨_, hrun, rfl, rfl, hn, rfl, fun hreset => ?_⟩
  obtain ⟨u, hrun', ⟨hkey, -, hblk, -, -, hks, -⟩, hhost, herrors⟩ :=
    run_to_completion rfl (decode_accepted hi.wellFormed n (loaded s k p rest)) hi.busy hreset hn
  obtain ⟨htkey, htw, htks, htblk, hthi, hthost⟩ := transformed_of_completionPart hpart hks
  rw [hkey] at htkey htw htblk
  rw [hblk] at htblk
  refine ⟨_, (run_append core 35 n _ _ hrun).trans hrun', rfl, rfl, hthost.trans hhost, htkey, htw, htks, htblk,
    fun j => ?_, fun hnone => (herrors hnone).trans (sameErrors_completionPart i u)⟩
  rw [busRead_blk rfl, hthi, if_pos j.isLt]

/-! ### The statements -/

/-- Settles O49: the unit commands complete as the block command does, and each list is performed without an error. -/
theorem blockCommandsAreUnitCommands : Obligations.BlockCommandsAreUnitCommands := by
  intro s hb hkey hblk
  have hlist : ∀ (i : Instr) (l : List Instr), NeedsKeyAndBlock i →
      (∀ j ∈ l, wellFormed j = true ∧ isBusyCommand j = true) → completeAll l s = completionPart i s →
      ∃ t u, perform i s = .next t ∧ performAll l s = .next u ∧ SameData t u ∧ t.busy = false ∧ u.busy = false ∧
        u.err = s.err := fun i l hi hl hall => by
    obtain ⟨t, ht, hdata, hbt, -⟩ := perform_of_loaded hi.wellFormed hi.busy hb hkey hblk
    obtain ⟨u, hu, hdata', hbu, herr⟩ := performAll_of_loaded hl hb hkey hblk
    rw [hall] at hdata'
    exact ⟨t, u, ht, hu, hdata.symm.trans hdata', hbt, hbu, herr⟩
  exact ⟨rfl, rfl,
    hlist .enc _ needsKeyAndBlock_enc isBusy_and_wellFormed_of_mem_encCommands (completeAll_encCommands s),
    hlist .dec _ needsKeyAndBlock_dec isBusy_and_wellFormed_of_mem_decCommands (completeAll_decCommands s)⟩

/-- Settles O57: after the CLR each write streams in the next byte. -/
theorem loadSequencesLoad : Obligations.LoadSequencesLoad := fun _ h rest hb =>
  ⟨run_ldkey hb h rest, run_ldblk hb h rest⟩

/-- Settles O58: `run_transform` for ENC with the cipher and for DEC with its inverse. -/
theorem blocksAreTransformedThroughTheBus : Obligations.BlocksAreTransformedThroughTheBus := by
  intro s k p rest dec hb hh
  cases dec with
  | false => exact run_transform needsKeyAndBlock_enc completionPart_enc hb hh
  | true => exact run_transform needsKeyAndBlock_dec completionPart_dec hb hh

end Sys2Proof.Machine
end
